-- ==== Sys2Proof/Word.lean ====
section
/-!
DEFINITION. The value types of the block (spec 00_scope R8, R9): bytes, 16-bit and 32-bit
unsigned words, byte strings. Lengths, counts, offsets and sizes are plain natural numbers, which
never wrap (R8, D14). No value of the block is signed.
-/
namespace Sys2Proof

/-- A byte: 8 bits, unsigned (R8). -/
abbrev Byte := BitVec 8

/-- `u16` of R8. -/
abbrev U16 := BitVec 16

/-- `u32` of R8. -/
abbrev U32 := BitVec 32

/-- A byte string of R9; byte 0 first. -/
abbrev Bytes := List Byte

end Sys2Proof
end

