-- ==== Sys2Proof/Machine/Bytes.lean ====
section
/-!
DEFINITION. Byte order (R9, R69, R94): the little-endian value of a byte string, of a slice of
one, and the little-endian bytes of a value.
-/
namespace Sys2Proof.Machine

/-- The unsigned little-endian value of a whole byte string. -/
def leNat : Bytes → Nat
  | [] => 0
  | b :: t => b.toNat + 256 * leNat t

/-- `s[off..off+n)` of R9. -/
def slice (s : Bytes) (off n : Nat) : Bytes := (s.drop off).take n

/-- `LE(s, off, n)` of R9. -/
def leAt (s : Bytes) (off n : Nat) : Nat := leNat (slice s off n)

/-- The `n` low bytes of `v`, least significant first. -/
def leBytes : Nat → Nat → Bytes
  | 0, _ => []
  | n + 1, v => BitVec.ofNat 8 v :: leBytes n (v / 256)

/-- `LE32(v)` of R9. -/
def le32 (v : U32) : Bytes := leBytes 4 v.toNat

end Sys2Proof.Machine
end

