-- ==== Sys2Proof/Machine/Checksum.lean ====
section
/-!
DEFINITION. The Checksum Unit (40_checksum): the reflected CRC-32 with initial value 0 and no
final exclusive-or.
-/
namespace Sys2Proof.Machine

/-- CRC_POLY (R4, R130). -/
def crcPoly : U32 := 0xEDB88320#32

/-- CRC_INIT (R4, R130). -/
def crcInit : U32 := 0#32

/-- One pass of the loop of R131: shift right by one, exclusive-or the polynomial if the bit shifted
out was 1. -/
def crcShift (c : U32) : U32 := if c.getLsbD 0 then (c >>> 1) ^^^ crcPoly else c >>> 1

/-- The loop of R131, `n` passes. -/
def crcShifts : Nat → U32 → U32
  | 0, c => c
  | n + 1, c => crcShifts n (crcShift c)

/-- `crc_step(c, b)` of R131. -/
def crcStep (c : U32) (b : Byte) : U32 := crcShifts 8 (c ^^^ b.setWidth 32)

/-- The fold of `crc_step` over a byte string, from `c` (R137 e). -/
def crcFold (c : U32) (s : Bytes) : U32 := s.foldl crcStep c

/-- `crc32(s)` of R132. -/
def crc32 (s : Bytes) : U32 := crcFold crcInit s

/-- Bit `j` of a byte string, in the order in which the bits enter the checksum: bit 0 of a byte first
(R7, R131; DEDUCED, log 22). False beyond the end. -/
def streamBit (s : Bytes) (j : Nat) : Bool := (s.getD (j / 8) 0#8).getLsbD (j % 8)

/-- `T[i]` of R136. -/
def crcTable (i : Byte) : U32 := crcStep 0#32 i

/-- The table form of `crc_step` (R136). -/
def crcStepByTable (c : U32) (b : Byte) : U32 :=
  (c >>> 8) ^^^ crcTable ((c ^^^ b.setWidth 32).setWidth 8)

end Sys2Proof.Machine
end

