-- ==== Sys2Proof/Config.lean ====
section
/-!
DEFINITION. The constants the source fixes (R4), the parameters it leaves open (R5), the
reference set P0 (R6), and the conditions a parameter set must meet (R5, R101). The parameters are
constants of one instance of the block: State carries them in its field cfg, which no step changes,
so that a claim about every state is a claim about every parameter set (log 1).
-/
namespace Sys2Proof

/-- Marker byte 1 (R4). -/
def sync1 : Byte := 0xAA#8
/-- Marker byte 2 (R4). -/
def sync2 : Byte := 0x44#8
/-- Marker byte 3 (R4). -/
def sync3 : Byte := 0x12#8
/-- HDR_LEN_CONST: the value the header-length byte must hold (R4). -/
def hdrLenConst : Byte := 28#8
/-- HDR_REST_LEN: header bytes after the header-length byte (R4, conflict C1). -/
def hdrRestLen : Nat := 24
/-- Bytes of a frame before its payload: marker, header-length byte, header rest (R67, R90). -/
def headLen : Nat := 28
/-- CRC_LEN: trailer bytes (R4). -/
def crcLen : Nat := 4
/-- COUNT_LEN: bytes of the leading count of a count-prefixed payload (R4). -/
def countLen : Nat := 4
/-- SIZE_RXSTATUS (R4). -/
def sizeRxStatus : Nat := 88
/-- VERSION_REC_SIZE: bytes of one version component record (R4, conflict C9). -/
def versionRecSize : Nat := 96
/-- HWMON_REC_SIZE: bytes of one hardware-monitor reading (R4). -/
def hwMonRecSize : Nat := 8
/-- JAM_PRI_BIT: the jamming bit of the primary status word (R4). -/
def jamPriBit : Nat := 15
/-- SPOOF_PRI_BIT: the spoofing bit of the primary status word (R4). -/
def spoofPriBit : Nat := 9
/-- JAM_AUX1_MASK: the channel jammer bits of the first auxiliary word (R4, R239). -/
def jamAux1Mask : U32 := 0x00000077#32
/-- The capacity of the frame buffer: 28 + 65535 bytes (R32, R66). -/
def fbCapacity : Nat := 65563
/-- The largest payload a 16-bit length declares (R90). -/
def maxPayload : Nat := 65535

/-- Five 32-bit words, one per word group of the receiver-status record: the status words
themselves (R231) or a mask for each of them (R5: ANT_MASK, INTEG_MASK). -/
structure StatusWords where
  /-- Group 0, the primary status word. -/
  primary : U32
  /-- Group 1, the first auxiliary status word. -/
  aux1 : U32
  /-- Group 2. -/
  aux2 : U32
  /-- Group 3. -/
  aux3 : U32
  /-- Group 4. -/
  aux4 : U32
deriving DecidableEq, Repr

/-- The parameters of R5, and the two capacities R4 lets a model take as arguments. The integers
of R5 are natural numbers here, because no value of the block is signed (R8; DEDUCED, log 10). -/
structure Config where
  msgIdVersion : U16
  msgIdHwMonitor : U16
  msgIdRxStatus : U16
  msgIdRxStatusEvent : U16
  msgIdTime : U16
  msgIdBestPos : U16
  msgIdHeading2 : U16
  msgIdDualHeading : U16
  sizeRxStatusEvent : Nat
  sizeTime : Nat
  sizeBestPos : Nat
  sizeHeading2 : Nat
  sizeDualHeading : Nat
  offSolStat : Nat
  wSolStat : Nat
  offPosType : Nat
  wPosType : Nat
  offClockStat : Nat
  wClockStat : Nat
  offUtcStat : Nat
  wUtcStat : Nat
  solComputed : Nat
  ptMfFloat : Nat
  ptWideInt : Nat
  ptNarrowInt : Nat
  clockValid : Nat
  utcValid : Nat
  antMask : StatusWords
  integMask : StatusWords
  abortSkipsFlags : Bool
  versionCap : Nat
  hwMonCap : Nat
deriving DecidableEq, Repr

/-- The eight message identifiers, in kind order (R21). -/
def Config.msgIds (c : Config) : List U16 :=
  [c.msgIdVersion, c.msgIdHwMonitor, c.msgIdRxStatus, c.msgIdRxStatusEvent,
   c.msgIdTime, c.msgIdBestPos, c.msgIdHeading2, c.msgIdDualHeading]

/-- R101: the eight message identifiers are pairwise distinct. -/
def Config.idsDistinct (c : Config) : Bool := decide c.msgIds.Nodup

/-- R5: a field width the block reads is 1, 2, 4 or 8. -/
def Config.widthOk (w : Nat) : Bool := w == 1 || w == 2 || w == 4 || w == 8

/-- R5: every `W_*` is 1, 2, 4 or 8. -/
def Config.widthsOk (c : Config) : Bool :=
  Config.widthOk c.wSolStat && Config.widthOk c.wPosType &&
    Config.widthOk c.wClockStat && Config.widthOk c.wUtcStat

/-- R5: every SIZE is at least `OFF + W` of each field the block reads from that record: the
solution status of best position (R236), the solution status and position type of both headings
(R237, R238), the two status fields of time (R242). -/
def Config.sizesOk (c : Config) : Bool :=
  decide (c.offSolStat + c.wSolStat ≤ c.sizeBestPos) &&
  decide (c.offSolStat + c.wSolStat ≤ c.sizeHeading2) &&
  decide (c.offPosType + c.wPosType ≤ c.sizeHeading2) &&
  decide (c.offSolStat + c.wSolStat ≤ c.sizeDualHeading) &&
  decide (c.offPosType + c.wPosType ≤ c.sizeDualHeading) &&
  decide (c.offClockStat + c.wClockStat ≤ c.sizeTime) &&
  decide (c.offUtcStat + c.wUtcStat ≤ c.sizeTime)

/-- A parameter set the block may be built with (R5, R101). Any other is refused (R101, U4, U5). -/
def Config.wf (c : Config) : Bool := c.idsDistinct && c.widthsOk && c.sizesOk

/-- P0, the reference parameter set (R5 last column, R6). PRESUMED: every value is from general
knowledge, as R6 says (log 1). -/
def Config.p0 : Config where
  msgIdVersion := 37#16
  msgIdHwMonitor := 963#16
  msgIdRxStatus := 93#16
  msgIdRxStatusEvent := 94#16
  msgIdTime := 101#16
  msgIdBestPos := 42#16
  msgIdHeading2 := 1335#16
  msgIdDualHeading := 2042#16
  sizeRxStatusEvent := 44
  sizeTime := 44
  sizeBestPos := 72
  sizeHeading2 := 48
  sizeDualHeading := 44
  offSolStat := 0
  wSolStat := 4
  offPosType := 4
  wPosType := 4
  offClockStat := 0
  wClockStat := 4
  offUtcStat := 40
  wUtcStat := 4
  solComputed := 0
  ptMfFloat := 34
  ptWideInt := 49
  ptNarrowInt := 50
  clockValid := 0
  utcValid := 1
  antMask := { primary := 0x00004078#32, aux1 := 0#32, aux2 := 0x70000000#32, aux3 := 0#32, aux4 := 0#32 }
  integMask := { primary := 0x004C0000#32, aux1 := 0#32, aux2 := 0#32, aux3 := 0#32, aux4 := 0#32 }
  abortSkipsFlags := true
  versionCap := 8
  hwMonCap := 10

end Sys2Proof
end

