-- ==== Sys2Proof/Machine/Memory.lean ====
section
/-!
DEFINITION. The frame buffer's byte space (R32, R66): addresses 0 to 65562, held as a list of
(address, byte) pairs in one canonical form, addresses strictly rising. An unlisted address has no
value: the spec leaves the contents unspecified until written (R35, R50, U2), so reading one answers
none (log 5).
-/
namespace Sys2Proof.Machine

/-- The bytes of a byte-addressed space that have been written. -/
abbrev Memory := List Host.Cell

/-- The byte at address `a`; none when nothing has written it. -/
def Memory.read : Memory → Nat → Option Byte
  | [], _ => none
  | (k, v) :: t, a => if a = k then some v else Memory.read t a

/-- Write one byte, keeping the addresses rising. -/
def Memory.write : Memory → Nat → Byte → Memory
  | [], a, b => [(a, b)]
  | (k, v) :: t, a, b =>
    if a < k then (a, b) :: (k, v) :: t
    else if a = k then (a, b) :: t
    else (k, v) :: Memory.write t a b

/-- Write a byte string from address `a` upward. -/
def Memory.writeBytes : Memory → Nat → Bytes → Memory
  | m, _, [] => m
  | m, a, b :: t => Memory.writeBytes (Memory.write m a b) (a + 1) t

/-- The `n` bytes from address `a` upward; none when one of them has not been written. -/
def Memory.readBytes : Memory → Nat → Nat → Option Bytes
  | _, _, 0 => some []
  | m, a, n + 1 =>
    match Memory.read m a, Memory.readBytes m (a + 1) n with
    | some b, some t => some (b :: t)
    | _, _ => none

/-- Every listed address lies at or above `lo` and below `hi`, and the addresses rise strictly. -/
def Memory.risesWithin : Memory → Nat → Nat → Bool
  | [], _, _ => true
  | (k, _) :: t, lo, hi => decide (lo ≤ k) && decide (k < hi) && Memory.risesWithin t (k + 1) hi

/-- The canonical form of the frame buffer: addresses strictly rising and inside its 65563 bytes. -/
def Memory.wf (m : Memory) : Bool := Memory.risesWithin m 0 fbCapacity

end Sys2Proof.Machine
end

