-- ==== Sys2Proof/Syntax.lean ====
section
/-!
DEFINITION. The block's instructions: one constructor for each of the fifteen rows of
spec/opcode_table.json. A frame instruction is a well-formed frame of one message kind (R90, R100);
the others are the operations at the block's ports (R280).
-/
namespace Sys2Proof

/-- The eight tracked message kinds, in the order of R21. -/
inductive Kind where
  | version | hwMonitor | rxStatus | rxStatusEvent | time | bestPos | heading2 | dualHeading
deriving DecidableEq, Repr

/-- The two count-prefixed kinds (R21, R100). -/
inductive CountedKind where
  | version | hwMonitor
deriving DecidableEq, Repr

/-- The six fixed-size kinds (R21, R100). -/
inductive FixedKind where
  | rxStatus | rxStatusEvent | time | bestPos | heading2 | dualHeading
deriving DecidableEq, Repr

/-- The seven error kinds of R290. -/
inductive ErrKind where
  | frameSyncMiss | shortRead | sizeMismatch | capacityExceeded | checksumMismatch | deviceFault
  | headerLenMismatch
deriving DecidableEq, Repr

/-- The ten header fields of R91 that the block stores, checksums and otherwise ignores (R92). The
two others, message identifier and payload length, are not here: the first selects the
instruction, the second is the length of its payload. -/
structure Header where
  msgType : Byte
  port : Byte
  sequence : U16
  idleTime : Byte
  timeStatus : Byte
  week : U16
  ms : U32
  rxStatus : U32
  reserved : U16
  fwBuild : U16
deriving DecidableEq, Repr

/-- The instructions. The first nine are frames, by message kind; the payload may have any length
the 16-bit length field declares, since a payload of the wrong length is still an instruction,
which raises its error (R192, R193). -/
inductive Instr where
  /-- Frame with `msg_id` = MSGID_VERSION (R194). -/
  | version (hdr : Header) (payload : Bytes)
  /-- Frame with `msg_id` = MSGID_HWMONITOR (R195). -/
  | hwMonitor (hdr : Header) (payload : Bytes)
  /-- Frame with `msg_id` = MSGID_RXSTATUS (R196). -/
  | rxStatus (hdr : Header) (payload : Bytes)
  /-- Frame with `msg_id` = MSGID_RXSTATUSEVENT (R197). -/
  | rxStatusEvent (hdr : Header) (payload : Bytes)
  /-- Frame with `msg_id` = MSGID_TIME (R198). -/
  | time (hdr : Header) (payload : Bytes)
  /-- Frame with `msg_id` = MSGID_BESTPOS (R199). -/
  | bestPos (hdr : Header) (payload : Bytes)
  /-- Frame with `msg_id` = MSGID_HEADING2 (R200). -/
  | heading2 (hdr : Header) (payload : Bytes)
  /-- Frame with `msg_id` = MSGID_DUALHEADING (R201). -/
  | dualHeading (hdr : Header) (payload : Bytes)
  /-- Frame with any other `msg_id` (R102, R202). -/
  | untracked (id : U16) (hdr : Header) (payload : Bytes)
  /-- Command code 0 (R280). -/
  | nop
  /-- Command code 1 (R270). -/
  | reset
  /-- Command code 2 (R271). -/
  | poll
  /-- Command code 3 (R279). -/
  | stop
  /-- A read of the snapshot port (R274). -/
  | snap
  /-- A write of byte `b` to the receive port (R276). -/
  | push (b : Byte)
deriving DecidableEq, Repr

/-- One access at the block's ports, as R280 encodes it: a 2-bit code on the command port, a read of
the snapshot port, or a byte written to the receive port. -/
inductive PortAccess where
  | command (code : BitVec 2)
  | snapshotRead
  | receiveWrite (b : Byte)
deriving DecidableEq, Repr

/-- An encoded instruction: a port access (R280) or the bytes of a frame (R90). -/
inductive Wire where
  | port (a : PortAccess)
  | frame (bytes : Bytes)
deriving DecidableEq, Repr

end Sys2Proof
end

