-- ==== Sys2Proof/Machine/State.lean ====
section
/-!
DEFINITION. The state of the machine as plain data: everything 10_state R20 gives the block, the
transport's queue rx (20_memory R61), the outputs a model records (R45, R274), and the model's own
fields, each named as such. Also the reasons a step can stop, and the state after reset (R50).
-/
namespace Sys2Proof.Machine

/-- A count-prefixed store (R23, R24): the count, and as many elements as the store has room for. -/
structure CountedStore where
  count : Nat
  elems : List Bytes
deriving DecidableEq, Repr

/-- The nine values of `fr_stage` (R30): S_IDLE, S_SYNC1, S_SYNC2, S_SYNC3, S_HLEN, S_HDR, S_PAY,
S_CRC, S_CHK. -/
inductive Stage where
  | idle | sync1 | sync2 | sync3 | hlen | hdr | pay | crc | chk
deriving DecidableEq, Repr

/-- The eight invalidity reasons of R43, in the order of their codes 0 to 7. -/
inductive Reason where
  | none | deviceFault | antenna | integrity | noFresh | bestNotComputed | hdgNotComputed | hdgType
deriving DecidableEq, Repr

/-- Where POLL stands (R271, R272): not running; at the guard of DRAIN; inside a frame attempt; before
AGG. The model's own field for the control position those rules imply (DEDUCED, log 14). -/
inductive PollPhase where
  | idle | guard | attempt | aggregate
deriving DecidableEq, Repr

/-- The result an EvAttempt event carries (R45, R190). The numeric code of an error kind is
`errCode`. -/
inductive AttemptResult where
  | ok (k : Kind)
  | untracked (id : U16)
  | err (e : ErrKind) (stage : Nat)
deriving DecidableEq, Repr

/-- A diagnostic event (R45). -/
inductive Event where
  | attempt (consumed : Nat) (result : AttemptResult)
  | aggregate (valid : Bool) (reason : Reason)
deriving DecidableEq, Repr

/-- What SNAP returns (R274). -/
structure Snapshot where
  version : CountedStore
  hwMonitor : CountedStore
  rxStatus : Bytes
  rxStatusEvent : Bytes
  time : Bytes
  bestPos : Bytes
  heading2 : Bytes
  dualHeading : Bytes
  hdgLast : Bool
  fresh : BitVec 8
  valid : Bool
  jamming : Bool
  spoofing : Bool
  reason : Reason
  bestOk : Bool
  hdgOk : Bool
  timeValid : Bool
deriving DecidableEq, Repr

/-- What the outside does in one step of the machine (log 2). -/
inductive Slot where
  /-- Nothing: the block takes its step, if a POLL is running. -/
  | quiet
  /-- An access at one of the block's ports (R280): it is decoded and executed. -/
  | port (a : PortAccess)
  /-- HOSTDRAIN: the Command Session removes the first `n` bytes of rx (R281). -/
  | hostDrain (n : Nat)
deriving DecidableEq, Repr

/-- The machine's state. -/
structure State where
  /-- The parameters of R5: constants of the instance, which no step changes (log 1). -/
  cfg : Config
  /-- The model's own: what the outside does, one slot a step, first slot next (log 2). DESIGN CHOICE:
  the list is finite, so every run has finitely many PUSHes. That is the premise which R351 says a
  claim that POLL ends must name and which R276 does not grant; here it holds in every run. -/
  slots : List Slot
  /-- The receive queue, oldest byte first (R61). -/
  rx : Bytes
  /-- `ver_count` and `ver_comp` (R23). -/
  version : CountedStore
  /-- `hw_count` and `hw_read` (R24). -/
  hwMonitor : CountedStore
  /-- `x[RXSTATUS]` (R22). -/
  rxStatus : Bytes
  /-- `x[RXSTATUSEVENT]` (R22). -/
  rxStatusEvent : Bytes
  /-- `x[TIME]` (R22). -/
  time : Bytes
  /-- `x[BESTPOS]` (R22). -/
  bestPos : Bytes
  /-- `x[HEADING2]` (R22). -/
  heading2 : Bytes
  /-- `x[DUALHEADING]` (R22). -/
  dualHeading : Bytes
  /-- `hdg_last` (R25): false is 0, HEADING2; true is 1, DUALHEADING. -/
  hdgLast : Bool
  /-- `fr_stage` (R30). -/
  frStage : Stage
  /-- `crc_acc` (R31). -/
  crcAcc : U32
  /-- `fb`, the frame buffer (R32, R66). -/
  fb : Memory
  /-- `fb_len` (R32). -/
  fbLen : Nat
  /-- `rx_crc` (R34). -/
  rxCrc : U32
  /-- The local `consumed` of R272: bytes the running attempt has popped (log 13). -/
  consumed : Nat
  /-- Where POLL stands (log 14). -/
  pollPhase : PollPhase
  /-- `fresh` (R40): bit `k` for kind index `k`. -/
  fresh : BitVec 8
  /-- `valid` (R41). -/
  valid : Bool
  /-- `jamming` (R42). -/
  jamming : Bool
  /-- `spoofing` (R42). -/
  spoofing : Bool
  /-- `reason` (R43). -/
  reason : Reason
  /-- `best_ok` (R44). -/
  bestOk : Bool
  /-- `hdg_ok` (R44). -/
  hdgOk : Bool
  /-- The diagnostic event stream as a history, oldest first (R45, log 11). -/
  events : List Event
  /-- What the latest SNAP returned; none before the first (R274, log 12). -/
  snapOut : Option Snapshot
deriving DecidableEq, Repr

/-- The reasons the machine stops with a fault. The block itself stops for nothing (R300, 93 part 1).
Each of these marks a use of a primitive that the spec does not define, in a state no run from reset
reaches (log 6). -/
inductive Fault where
  /-- RxPop(1) at S_SYNC1 with rx empty, which R62 says is never performed. Raised by the stage
  S_SYNC1. Safe. -/
  | rxPopUndefined
  /-- MemRead outside the bytes written in this attempt (R66). Raised by the stages S_PAY and S_CHK.
  Safe. -/
  | fbReadUndefined
  /-- MemWrite at an address other than fb_len (R66). Raised by the stages S_SYNC1 to S_PAY. Safe. -/
  | fbWriteUndefined
  /-- MemWrite beyond the 65563 bytes of fb (R66). Raised by the stages S_SYNC1 to S_PAY. Safe. -/
  | fbOutside
deriving DecidableEq, Repr

/-- The reasons a step is refused. -/
inductive Refusal where
  /-- The instruction has no meaning yet. Raised by no arm of exec. Safe. -/
  | notModelled (mnemonic : String)
  /-- RESET, STOP, SNAP, POLL or HOSTDRAIN while a POLL is running (R275, R281, R282; U3 "refuse").
  Raised by the meanings of those operations. Safe. -/
  | pollRunning (op : String)
  /-- A parameter set that breaks R5 or R101 (U4, U5 "refuse"). Raised by step. Safe. -/
  | illFormedConfig
deriving DecidableEq, Repr

/-- A store whose count is 0 and whose elements are all zero bytes (R50). -/
def CountedStore.zero (cap size : Nat) : CountedStore where
  count := 0
  elems := List.replicate cap (List.replicate size 0#8)

/-- Every piece of state at its reset value (R50), for the parameters `c`. rx, slots, events and
snapOut are not state that RESET sets: they are empty here (logs 2, 4, 11, 12). fb lists nothing,
since its contents are unspecified (log 5). -/
def State.resetOf (c : Config) : State where
  cfg := c
  slots := []
  rx := []
  version := CountedStore.zero c.versionCap versionRecSize
  hwMonitor := CountedStore.zero c.hwMonCap hwMonRecSize
  rxStatus := List.replicate sizeRxStatus 0#8
  rxStatusEvent := List.replicate c.sizeRxStatusEvent 0#8
  time := List.replicate c.sizeTime 0#8
  bestPos := List.replicate c.sizeBestPos 0#8
  heading2 := List.replicate c.sizeHeading2 0#8
  dualHeading := List.replicate c.sizeDualHeading 0#8
  hdgLast := false
  frStage := .idle
  crcAcc := 0#32
  fb := []
  fbLen := 0
  rxCrc := 0#32
  consumed := 0
  pollPhase := .idle
  fresh := 0#8
  valid := false
  jamming := false
  spoofing := false
  reason := .none
  bestOk := false
  hdgOk := false
  events := []
  snapOut := none

/-- The machine right after reset, at the reference parameters P0 (log 1), with rx empty (log 4). -/
def State.reset : State := State.resetOf Config.p0

end Sys2Proof.Machine
end

