-- ==== Sys2Proof/Machine/Codes.lean ====
section
/-!
DEFINITION. The numbers the spec gives its named values: kind indices (R21), error codes (R290),
reason codes (R43).
-/
namespace Sys2Proof.Machine

/-- The tracked kind a fixed-size kind is. -/
def fixedToKind (k : FixedKind) : Kind :=
  match k with
  | .rxStatus => .rxStatus
  | .rxStatusEvent => .rxStatusEvent
  | .time => .time
  | .bestPos => .bestPos
  | .heading2 => .heading2
  | .dualHeading => .dualHeading

/-- The tracked kind a count-prefixed kind is. -/
def countedToKind (k : CountedKind) : Kind :=
  match k with
  | .version => .version
  | .hwMonitor => .hwMonitor

/-- The kind index `k` of R21, which is also its bit position in `fresh`. -/
def kindIndex (k : Kind) : Nat :=
  match k with
  | .version => 0
  | .hwMonitor => 1
  | .rxStatus => 2
  | .rxStatusEvent => 3
  | .time => 4
  | .bestPos => 5
  | .heading2 => 6
  | .dualHeading => 7

/-- The error codes of R290. -/
def errCode (e : ErrKind) : Nat :=
  match e with
  | .frameSyncMiss => 1
  | .shortRead => 2
  | .sizeMismatch => 3
  | .capacityExceeded => 4
  | .checksumMismatch => 5
  | .deviceFault => 6
  | .headerLenMismatch => 7

/-- The 3-bit reason codes of R43. -/
def reasonCode (r : Reason) : BitVec 3 :=
  match r with
  | .none => 0#3
  | .deviceFault => 1#3
  | .antenna => 2#3
  | .integrity => 3#3
  | .noFresh => 4#3
  | .bestNotComputed => 5#3
  | .hdgNotComputed => 6#3
  | .hdgType => 7#3

/-- The message identifier parameter of a kind (R5, R100). -/
def kindMsgId (c : Config) (k : Kind) : U16 :=
  match k with
  | .version => c.msgIdVersion
  | .hwMonitor => c.msgIdHwMonitor
  | .rxStatus => c.msgIdRxStatus
  | .rxStatusEvent => c.msgIdRxStatusEvent
  | .time => c.msgIdTime
  | .bestPos => c.msgIdBestPos
  | .heading2 => c.msgIdHeading2
  | .dualHeading => c.msgIdDualHeading

/-- `SIZE_k` of a fixed-size kind (R4, R5, R21). -/
def fixedSize (c : Config) (k : FixedKind) : Nat :=
  match k with
  | .rxStatus => sizeRxStatus
  | .rxStatusEvent => c.sizeRxStatusEvent
  | .time => c.sizeTime
  | .bestPos => c.sizeBestPos
  | .heading2 => c.sizeHeading2
  | .dualHeading => c.sizeDualHeading

/-- The element size of a count-prefixed kind (R4, R100). -/
def countedElem (k : CountedKind) : Nat :=
  match k with
  | .version => versionRecSize
  | .hwMonitor => hwMonRecSize

/-- The capacity of a count-prefixed kind's store (R4, R100). -/
def countedCap (c : Config) (k : CountedKind) : Nat :=
  match k with
  | .version => c.versionCap
  | .hwMonitor => c.hwMonCap

end Sys2Proof.Machine
end

