-- ==== Sys2Proof/Machine/Ops.lean ====
section
/-!
DEFINITION. The named operations over the state: reading rx (R61 to R63), the frame buffer
(R66), the checksum register (R133, R134), the events (R45), ending an attempt and raising an error
(R272, R300), and COMMIT (R191).
-/
namespace Sys2Proof.Machine

/-- What a step or a meaning answers. -/
abbrev Result := Host.Outcome State Fault Refusal

/-- `RxAvail()` (R61). -/
def rxAvail (s : State) : Nat := s.rx.length

/-- The state after `RxPop(n)` (R62): the first `n` bytes of rx are gone, and the attempt has
consumed `n` more (R272). -/
def rxPop (n : Nat) (s : State) : State :=
  { s with rx := s.rx.drop n, consumed := s.consumed + n }

/-- `PUSH b` (R276). -/
def rxPush (b : Byte) (s : State) : State := { s with rx := s.rx ++ [b] }

/-- `MemRead(addr, n)` (R66): defined only for `addr + n <= fb_len`. -/
def fbRead (addr n : Nat) (s : State) : Option Bytes :=
  if addr + n ≤ s.fbLen then Memory.readBytes s.fb addr n else none

/-- The state after `MemWrite(addr, n, v)` (R66): the bytes stored, `fb_len` grown past them. -/
def fbWrite (addr : Nat) (v : Bytes) (s : State) : State :=
  { s with fb := Memory.writeBytes s.fb addr v, fbLen := addr + v.length }

/-- CRC.CLR (R133). -/
def crcClr (s : State) : State := { s with crcAcc := crcInit }

/-- CRC.UPD once for each byte of `v`, in order (R134). -/
def crcUpd (v : Bytes) (s : State) : State := { s with crcAcc := crcFold s.crcAcc v }

/-- `pc <- target` (R10). -/
def setStage (g : Stage) (s : State) : State := { s with frStage := g }

/-- `emit ev` (R10, R45). -/
def emit (ev : Event) (s : State) : State := { s with events := s.events ++ [ev] }

/-- The end of a frame attempt that has result `r`: `fr_stage` is S_IDLE (R150), the event
`EvAttempt(consumed, r)` is emitted, and control returns to the guard of DRAIN (R272). -/
def endAttempt (r : AttemptResult) (s : State) : State :=
  { s with frStage := .idle, pollPhase := .guard, events := s.events ++ [.attempt s.consumed r] }

/-- TAKING AN ERROR: `raise E(stage)` (R300, R301). The attempt or decode stops here; nothing is
saved, no holder and no flag changes; the event carries the kind and the stage. There is no return
operation (R302): the next attempt starts at the next unconsumed byte. -/
def raise (e : ErrKind) (stage : Nat) (s : State) : State := endAttempt (.err e stage) s

/-- The marks COMMIT leaves beside the record (R191): `fresh[k] <- 1`, and `hdg_last` for a heading
kind. -/
def markFresh (k : Kind) (s : State) : State :=
  { s with
    fresh := s.fresh ||| (1#8 <<< kindIndex k)
    hdgLast := match k with
      | .heading2 => false
      | .dualHeading => true
      | _ => s.hdgLast }

/-- `x[k] <- v` for a fixed-size kind (R191). -/
def setFixed (k : FixedKind) (v : Bytes) (s : State) : State :=
  match k with
  | .rxStatus => { s with rxStatus := v }
  | .rxStatusEvent => { s with rxStatusEvent := v }
  | .time => { s with time := v }
  | .bestPos => { s with bestPos := v }
  | .heading2 => { s with heading2 := v }
  | .dualHeading => { s with dualHeading := v }

/-- `x[k]` of a fixed-size kind (R22). -/
def getFixed (k : FixedKind) (s : State) : Bytes :=
  match k with
  | .rxStatus => s.rxStatus
  | .rxStatusEvent => s.rxStatusEvent
  | .time => s.time
  | .bestPos => s.bestPos
  | .heading2 => s.heading2
  | .dualHeading => s.dualHeading

/-- `x[k] <- v` for a count-prefixed kind (R191). -/
def setCounted (k : CountedKind) (v : CountedStore) (s : State) : State :=
  match k with
  | .version => { s with version := v }
  | .hwMonitor => { s with hwMonitor := v }

/-- `x[k]` of a count-prefixed kind (R23, R24). -/
def getCounted (k : CountedKind) (s : State) : CountedStore :=
  match k with
  | .version => s.version
  | .hwMonitor => s.hwMonitor

/-- COMMIT(k, v) for a fixed-size kind (R191): one step. -/
def commitFixed (k : FixedKind) (v : Bytes) (s : State) : State :=
  markFresh (fixedToKind k) (setFixed k v s)

/-- COMMIT(k, v) for a count-prefixed kind (R191): one step. -/
def commitCounted (k : CountedKind) (v : CountedStore) (s : State) : State :=
  markFresh (countedToKind k) (setCounted k v s)

/-- No POLL is running (R275). -/
def isIdle (s : State) : Bool := decide (s.pollPhase = .idle)

/-- An operation the host may issue only when no POLL is running (R275, R282): refused otherwise
(log 7). -/
def whenIdle (op : String) (s t : State) : Result :=
  if isIdle s then .next t else .refused (.pollRunning op)

end Sys2Proof.Machine
end

