-- ==== Sys2Proof/Machine/Operands.lean ====
section
/-!
DEFINITION. The fields the block reads out of records and payloads (R94): the leading count and
the elements of a count-prefixed payload (R110, R111, R193), the receiver-status view (R112, R231),
the solution status, position type and time status fields (R236, R237, R238, R242).
-/
namespace Sys2Proof.Machine

/-- `count = LE(payload, 0, 4)` (R100, R193). -/
def payloadCount (p : Bytes) : Nat := leAt p 0 countLen

/-- Element `i` of a count-prefixed payload: `payload[4+elem*i .. 4+elem*(i+1))` (R194, R195). -/
def payloadElem (elem : Nat) (p : Bytes) (i : Nat) : Bytes := slice p (countLen + elem * i) elem

/-- The store after a decode of `n` elements (R194, R195): the first `n` are the payload's, the
rest keep what they held (R23, D15). -/
def storeElems (elem n : Nat) (p : Bytes) (old : CountedStore) : CountedStore where
  count := n
  elems := (List.range n).map (payloadElem elem p) ++ old.elems.drop n

/-- `error` of the receiver-status holder (R231). -/
def errorWord (s : State) : Nat := leAt s.rxStatus 0 4

/-- `word[g]` of the receiver-status holder (R231), group `g` at record offset `8 + 16*g`. -/
def statusWord (s : State) (g : Nat) : U32 := BitVec.ofNat 32 (leAt s.rxStatus (8 + 16 * g) 4)

/-- The five current-value words of the receiver-status holder (R112, R231). -/
def statusWords (s : State) : StatusWords where
  primary := statusWord s 0
  aux1 := statusWord s 1
  aux2 := statusWord s 2
  aux3 := statusWord s 3
  aux4 := statusWord s 4

/-- Some word has a bit of its mask set: `exists g in 0..4 : (word[g] & mask[g]) != 0` (R234). -/
def anyMasked (w m : StatusWords) : Bool :=
  decide (w.primary &&& m.primary ≠ 0#32) || decide (w.aux1 &&& m.aux1 ≠ 0#32) ||
  decide (w.aux2 &&& m.aux2 ≠ 0#32) || decide (w.aux3 &&& m.aux3 ≠ 0#32) ||
  decide (w.aux4 &&& m.aux4 ≠ 0#32)

/-- The solution status of a best-position or heading record (R236, R237). -/
def solStatus (c : Config) (rec : Bytes) : Nat := leAt rec c.offSolStat c.wSolStat

/-- The position type of a heading record (R238). -/
def posType (c : Config) (rec : Bytes) : Nat := leAt rec c.offPosType c.wPosType

/-- The clock-model status of a time record (R242). -/
def clockStatus (c : Config) (rec : Bytes) : Nat := leAt rec c.offClockStat c.wClockStat

/-- The UTC status of a time record (R242). -/
def utcStatus (c : Config) (rec : Bytes) : Nat := leAt rec c.offUtcStat c.wUtcStat

/-- `H`: the heading record decoded last (R237). -/
def headingRecord (s : State) : Bytes := if s.hdgLast then s.dualHeading else s.heading2

end Sys2Proof.Machine
end

