-- ==== Sys2Proof/Machine/Flags.lean ====
section
/-!
DEFINITION. Every flag computation of the block: the values the aggregation steps derive (R233
to R241), `time_valid` (R242), the five named states (R47), and the snapshot that exposes the flags
(R274).
-/
namespace Sys2Proof.Machine

/-- `fresh[k] = 1` (R40). -/
def isFresh (k : Kind) (s : State) : Bool := s.fresh.getLsbD (kindIndex k)

/-- `error != 0` (R233). -/
def deviceFault (s : State) : Bool := decide (errorWord s ≠ 0)

/-- `ant_fault` of AGG.3 (R234). -/
def antFault (s : State) : Bool := anyMasked (statusWords s) s.cfg.antMask

/-- `integ_fault` of AGG.4 (R235). -/
def integFault (s : State) : Bool := anyMasked (statusWords s) s.cfg.integMask

/-- `best_ok` of AGG.5 (R236). -/
def bestAccepted (s : State) : Bool :=
  isFresh .bestPos s && decide (solStatus s.cfg s.bestPos = s.cfg.solComputed)

/-- `fresh_h` of AGG.6 (R237). -/
def headingFresh (s : State) : Bool := isFresh .heading2 s || isFresh .dualHeading s

/-- `hdg_ok` of AGG.6 (R237). -/
def headingAccepted (s : State) : Bool :=
  headingFresh s && decide (solStatus s.cfg (headingRecord s) = s.cfg.solComputed)

/-- `type_ok` of AGG.7 (R238). -/
def typeAccepted (s : State) : Bool :=
  let pt := posType s.cfg (headingRecord s)
  decide (pt = s.cfg.ptMfFloat) || decide (pt = s.cfg.ptWideInt) || decide (pt = s.cfg.ptNarrowInt)

/-- `jamming` of AGG.8 (R239). -/
def jammingSeen (s : State) : Bool :=
  (statusWord s 0).getLsbD jamPriBit || decide (statusWord s 1 &&& jamAux1Mask ≠ 0#32)

/-- `spoofing` of AGG.9 (R240). -/
def spoofingSeen (s : State) : Bool := (statusWord s 0).getLsbD spoofPriBit

/-- The reason of AGG.R (R241): the first that applies. It reads `best_ok` and `hdg_ok` as the
earlier steps have written them. -/
def reasonOf (s : State) : Reason :=
  if antFault s then .antenna
  else if integFault s then .integrity
  else if !(isFresh .bestPos s && headingFresh s) then .noFresh
  else if !s.bestOk then .bestNotComputed
  else if !s.hdgOk then .hdgNotComputed
  else if !typeAccepted s then .hdgType
  else .none

/-- `time_valid` as a function of the parameters and the TIME holder alone (R46, R242). -/
def timeValidOf (c : Config) (rec : Bytes) : Bool :=
  decide (clockStatus c rec = c.clockValid) && decide (utcStatus c rec = c.utcValid)

/-- The output `time_valid` (R46). -/
def timeValid (s : State) : Bool := timeValidOf s.cfg s.time

/-- NoData (R47). -/
def noData (s : State) : Bool := decide (s.fresh = 0#8)

/-- PartialData (R47). -/
def partialData (s : State) : Bool := decide (s.fresh ≠ 0#8) && !s.bestOk && !s.hdgOk

/-- BestFixAvailable (R47). -/
def bestFixAvailable (s : State) : Bool := s.bestOk

/-- HeadingFixAvailable (R47). -/
def headingFixAvailable (s : State) : Bool := s.hdgOk

/-- FixValid (R47). -/
def fixValid (s : State) : Bool := s.valid

/-- The snapshot (R274). -/
def snapshot (s : State) : Snapshot where
  version := s.version
  hwMonitor := s.hwMonitor
  rxStatus := s.rxStatus
  rxStatusEvent := s.rxStatusEvent
  time := s.time
  bestPos := s.bestPos
  heading2 := s.heading2
  dualHeading := s.dualHeading
  hdgLast := s.hdgLast
  fresh := s.fresh
  valid := s.valid
  jamming := s.jamming
  spoofing := s.spoofing
  reason := s.reason
  bestOk := s.bestOk
  hdgOk := s.hdgOk
  timeValid := timeValid s

end Sys2Proof.Machine
end

