-- ==== Sys2Proof/Machine/Aggregator.lean ====
section
/-!
DEFINITION. The Status Aggregator (43_status_aggregator): AGG as its steps in the order of R232
to R241. Each step is a function of the state as the step before it left it.
-/
namespace Sys2Proof.Machine

/-- AGG.1, the per-cycle reset (R232). -/
def aggReset (s : State) : State :=
  { s with valid := false, bestOk := false, hdgOk := false, reason := .none }

/-- AGG.2 on a device fault: the reason (R233). -/
def aggFault (s : State) : State := { s with reason := .deviceFault }

/-- AGG.5, best position accepted (R236). -/
def aggBest (s : State) : State := { s with bestOk := bestAccepted s }

/-- AGG.6, heading accepted (R237). -/
def aggHeading (s : State) : State := { s with hdgOk := headingAccepted s }

/-- AGG.7, overall validity (R238), with AGG.3 and AGG.4 as its first two conjuncts. -/
def aggValid (s : State) : State :=
  { s with valid := !antFault s && !integFault s && s.bestOk && s.hdgOk && typeAccepted s }

/-- AGG.R, the reason (R241). -/
def aggReason (s : State) : State := { s with reason := reasonOf s }

/-- AGG.8, jamming (R239). -/
def aggJamming (s : State) : State := { s with jamming := jammingSeen s }

/-- AGG.9, spoofing (R240). -/
def aggSpoofing (s : State) : State := { s with spoofing := spoofingSeen s }

/-- The derivation without its event: the branch of AGG.2 (R233), or steps 3 to 9. -/
def aggDerive (s : State) : State :=
  let s1 := aggReset s
  if deviceFault s1 then
    let s2 := aggFault s1
    if s.cfg.abortSkipsFlags then s2 else aggSpoofing (aggJamming s2)
  else aggSpoofing (aggJamming (aggReason (aggValid (aggHeading (aggBest s1)))))

/-- AGG (R230, R244): the derivation, the event, and the end of the POLL. -/
def aggregate (s : State) : State :=
  let t := aggDerive s
  { emit (.aggregate t.valid t.reason) t with pollPhase := .idle }

end Sys2Proof.Machine
end

