-- ==== Sys2Proof/WellFormed.lean ====
section
/-!
DEFINITION. Which terms of Instr an encoding stands for, under a parameter set: a payload fits
the 16-bit length field (R90), and an untracked identifier equals none of the eight tracked ones
(R100, R102).
-/
namespace Sys2Proof

/-- R90: a payload has at most 65535 bytes. -/
def payloadFits (p : Bytes) : Bool := decide (p.length ≤ maxPayload)

/-- R102: the identifier matches none of the eight. -/
def Config.isUntracked (c : Config) (id : U16) : Bool := !c.msgIds.contains id

/-- Well-formed instructions under `c`. -/
def Instr.wf (c : Config) (i : Instr) : Bool :=
  match i with
  | .version _ p => payloadFits p
  | .hwMonitor _ p => payloadFits p
  | .rxStatus _ p => payloadFits p
  | .rxStatusEvent _ p => payloadFits p
  | .time _ p => payloadFits p
  | .bestPos _ p => payloadFits p
  | .heading2 _ p => payloadFits p
  | .dualHeading _ p => payloadFits p
  | .untracked id _ p => c.isUntracked id && payloadFits p
  | .nop => true
  | .reset => true
  | .poll => true
  | .stop => true
  | .snap => true
  | .push _ => true

end Sys2Proof
end

