-- ==== Sys2Proof/Decode.lean ====
section
/-!
DEFINITION. Decoding and encoding. A frame is read from a byte list by the functional form of the
Frame Reader (R165), which refuses every other byte list by the error kind and stage of R290, and
its message identifier selects the instruction (R100). A port access is decoded by R280. The encoder
lays a frame out by R90, R91, R95.
-/
namespace Sys2Proof
open Sys2Proof.Machine

/-- The three marker bytes and the header-length byte (R67, R90). -/
def frameLead : Bytes := [sync1, sync2, sync3, hdrLenConst]

/-- The result of one frame attempt (R150). `body` is the accepted frame without its trailer, the
bytes `fb[0..28+N)`; `Frame(id, payload)` is the pair `frameId body`, `framePayload body`. -/
inductive ReadResult where
  | frame (body : Bytes)
  | err (e : ErrKind) (stage : Nat)
  | noFrame
deriving DecidableEq, Repr

/-- `msg_id = LE(fb, 4, 2)` (R33). -/
def frameId (body : Bytes) : U16 := BitVec.ofNat 16 (leAt body 4 2)

/-- `pay_len = LE(fb, 8, 2)` (R33, R93). -/
def frameLen (body : Bytes) : Nat := leAt body 8 2

/-- The payload: the `pay_len` bytes from frame offset 28 (R90). -/
def framePayload (body : Bytes) : Bytes := slice body headLen (frameLen body)

/-- The ignored header fields at the frame offsets of R91. -/
def headerOf (body : Bytes) : Header where
  msgType := BitVec.ofNat 8 (leAt body 6 1)
  port := BitVec.ofNat 8 (leAt body 7 1)
  sequence := BitVec.ofNat 16 (leAt body 10 2)
  idleTime := BitVec.ofNat 8 (leAt body 12 1)
  timeStatus := BitVec.ofNat 8 (leAt body 13 1)
  week := BitVec.ofNat 16 (leAt body 14 2)
  ms := BitVec.ofNat 32 (leAt body 16 4)
  rxStatus := BitVec.ofNat 32 (leAt body 20 4)
  reserved := BitVec.ofNat 16 (leAt body 24 2)
  fwBuild := BitVec.ofNat 16 (leAt body 26 2)

/-- The tail of R165: `h` is the header rest, `u` what follows it. -/
def readBody (h u : Bytes) : ReadResult × Bytes :=
  let n := leAt h 4 2
  if u.length < n then (.err .shortRead 6, u)
  else if u.length < n + crcLen then (.err .shortRead 7, u.drop n)
  else
    let body := frameLead ++ h ++ u.take n
    if crc32 body = BitVec.ofNat 32 (leAt u n crcLen) then (.frame body, u.drop (n + crcLen))
    else (.err .checksumMismatch 8, u.drop (n + crcLen))

/-- `attempt(rx)` of R165: the result of one frame attempt and the bytes it leaves. -/
def readFrame (rx : Bytes) : ReadResult × Bytes :=
  match rx with
  | [] => (.noFrame, [])
  | x :: t =>
    if x ≠ sync1 then (.err .frameSyncMiss 1, t) else
    match t with
    | [] => (.err .shortRead 2, [])
    | x :: t =>
      if x ≠ sync2 then (.err .frameSyncMiss 2, t) else
      match t with
      | [] => (.err .shortRead 3, [])
      | x :: t =>
        if x ≠ sync3 then (.err .frameSyncMiss 3, t) else
        match t with
        | [] => (.err .shortRead 4, [])
        | x :: t =>
          if x ≠ hdrLenConst then (.err .headerLenMismatch 4, t) else
          if t.length < hdrRestLen then (.err .shortRead 5, t)
          else readBody (t.take hdrRestLen) (t.drop hdrRestLen)

/-- R100: the message identifier selects the instruction. The whole 16 bits are compared. -/
def selectInstr (c : Config) (id : U16) (h : Header) (p : Bytes) : Instr :=
  if id = c.msgIdVersion then .version h p
  else if id = c.msgIdHwMonitor then .hwMonitor h p
  else if id = c.msgIdRxStatus then .rxStatus h p
  else if id = c.msgIdRxStatusEvent then .rxStatusEvent h p
  else if id = c.msgIdTime then .time h p
  else if id = c.msgIdBestPos then .bestPos h p
  else if id = c.msgIdHeading2 then .heading2 h p
  else if id = c.msgIdDualHeading then .dualHeading h p
  else .untracked id h p

/-- The instruction of an accepted frame, from its bytes before the trailer (R160, R190). -/
def frameInstr (c : Config) (body : Bytes) : Instr :=
  selectInstr c (frameId body) (headerOf body) (framePayload body)

/-- Why a frame's bytes are no instruction. -/
inductive DecodeError where
  /-- The Frame Reader's error kind and stage (R104, R290). -/
  | frameError (e : ErrKind) (stage : Nat)
  /-- No byte at all (R151). -/
  | noFrame
  /-- Bytes stand after the frame. -/
  | trailingBytes
deriving DecidableEq, Repr

/-- The frame instruction at the head of a byte list, and the bytes after it. -/
def decodeFrame (c : Config) (rx : Bytes) : Except DecodeError (Instr × Bytes) :=
  match readFrame rx with
  | (.frame body, rest) => .ok (frameInstr c body, rest)
  | (.err e st, _) => .error (.frameError e st)
  | (.noFrame, _) => .error .noFrame

/-- The instruction of a port access (R280). Each of the four command codes has one. -/
def decodePort (a : PortAccess) : Instr :=
  match a with
  | .command code =>
    if code = 0#2 then .nop else if code = 1#2 then .reset else if code = 2#2 then .poll else .stop
  | .snapshotRead => .snap
  | .receiveWrite b => .push b

/-- The instruction an encoding stands for. -/
def decode (c : Config) (w : Wire) : Except DecodeError Instr :=
  match w with
  | .port a => .ok (decodePort a)
  | .frame bytes =>
    match decodeFrame c bytes with
    | .error e => .error e
    | .ok (i, []) => .ok i
    | .ok (_, _ :: _) => .error .trailingBytes

/-- The 24 bytes of the header rest (R91), in order and without padding. -/
def headerRest (id : U16) (h : Header) (n : Nat) : Bytes :=
  leBytes 2 id.toNat ++ [h.msgType, h.port] ++ leBytes 2 n ++ leBytes 2 h.sequence.toNat ++
  [h.idleTime, h.timeStatus] ++ leBytes 2 h.week.toNat ++ leBytes 4 h.ms.toNat ++
  leBytes 4 h.rxStatus.toNat ++ leBytes 2 h.reserved.toNat ++ leBytes 2 h.fwBuild.toNat

/-- The bytes of a frame before its trailer (R90). -/
def frameBody (id : U16) (h : Header) (p : Bytes) : Bytes :=
  frameLead ++ headerRest id h p.length ++ p

/-- A whole frame (R90, R95): the notation `FRAME` of R120, R121. -/
def frameBytes (id : U16) (h : Header) (p : Bytes) : Bytes :=
  frameBody id h p ++ le32 (crc32 (frameBody id h p))

/-- The encoding of an instruction under `c` (R90, R100, R280). -/
def encode (c : Config) (i : Instr) : Wire :=
  match i with
  | .version h p => .frame (frameBytes c.msgIdVersion h p)
  | .hwMonitor h p => .frame (frameBytes c.msgIdHwMonitor h p)
  | .rxStatus h p => .frame (frameBytes c.msgIdRxStatus h p)
  | .rxStatusEvent h p => .frame (frameBytes c.msgIdRxStatusEvent h p)
  | .time h p => .frame (frameBytes c.msgIdTime h p)
  | .bestPos h p => .frame (frameBytes c.msgIdBestPos h p)
  | .heading2 h p => .frame (frameBytes c.msgIdHeading2 h p)
  | .dualHeading h p => .frame (frameBytes c.msgIdDualHeading h p)
  | .untracked id h p => .frame (frameBytes id h p)
  | .nop => .port (.command 0#2)
  | .reset => .port (.command 1#2)
  | .poll => .port (.command 2#2)
  | .stop => .port (.command 3#2)
  | .snap => .port .snapshotRead
  | .push b => .port (.receiveWrite b)

/-- The header with every ignored field zero (R120: every unnamed byte of `FRAME` is zero). -/
def Header.zero : Header where
  msgType := 0#8
  port := 0#8
  sequence := 0#16
  idleTime := 0#8
  timeStatus := 0#8
  week := 0#16
  ms := 0#32
  rxStatus := 0#32
  reserved := 0#16
  fwBuild := 0#16

/-- The encoding that the opcode table's bits of a row stand for (log 16). 16 bits: the `msg_id` of
the frame `FRAME w` with every other header byte zero, an empty payload, and the marker,
header-length byte and trailer that R90 fixes. 1 to 8 bits: a command-port value if it is below 4 (the
code is 2 bits wide), and otherwise the byte of a receive-port write (the eight bits of the PUSH row).
No bits: the snapshot-port read. -/
def tableWire (nbits w : Nat) : Option Wire :=
  if nbits = 0 then some (.port .snapshotRead)
  else if nbits ≤ 8 then
    (if w < 4 then some (.port (.command (BitVec.ofNat 2 w)))
     else if w < 256 then some (.port (.receiveWrite (BitVec.ofNat 8 w))) else none)
  else if nbits = 16 then
    (if w < 65536 then some (.frame (frameBytes (BitVec.ofNat 16 w) Header.zero [])) else none)
  else none

/-- What the decoder reads from the opcode table's bits of a row, at the reference parameters. -/
def decodeTableWord (nbits w : Nat) : Option Instr :=
  match tableWire nbits w with
  | none => none
  | some wire =>
    match decode Config.p0 wire with
    | .ok i => some i
    | .error _ => none

end Sys2Proof
end

