-- ==== Sys2Proof/Machine/Frames.lean ====
section
/-!
DEFINITION. The Message Decoder (42_message_decoder): the meanings of the nine frame
instructions. Each checks its payload, commits or raises, and ends the frame attempt with its event
(R190). The header is not looked at (R92, R204).
-/
namespace Sys2Proof.Machine

/-- CHECK_FIXED and COMMIT for a fixed-size kind (R192, R191), and the end of the attempt. -/
def decFixed (k : FixedKind) (p : Bytes) (s : State) : State :=
  if p.length ≠ fixedSize s.cfg k then raise .sizeMismatch 9 s
  else endAttempt (.ok (fixedToKind k)) (commitFixed k p s)

/-- CHECK_COUNTED and COMMIT for a count-prefixed kind (R193, R194, R195), and the end of the
attempt: length below 4, then capacity, then length. -/
def decCounted (k : CountedKind) (p : Bytes) (s : State) : State :=
  if p.length < countLen then raise .sizeMismatch 9 s
  else if countedCap s.cfg k < payloadCount p then raise .capacityExceeded 9 s
  else if p.length ≠ countLen + payloadCount p * countedElem k then raise .sizeMismatch 9 s
  else
    endAttempt (.ok (countedToKind k))
      (commitCounted k (storeElems (countedElem k) (payloadCount p) p (getCounted k s)) s)

/-- DEC.UNTRACKED (R202), and the end of the attempt. -/
def decUntracked (id : U16) (s : State) : State := endAttempt (.untracked id) s

/-- DEC.VERSION (R194). -/
def execVersion (_hdr : Header) (p : Bytes) (s : State) : Result := .next (decCounted .version p s)

/-- DEC.HWMONITOR (R195). -/
def execHwMonitor (_hdr : Header) (p : Bytes) (s : State) : Result :=
  .next (decCounted .hwMonitor p s)

/-- DEC.RXSTATUS (R196). -/
def execRxStatus (_hdr : Header) (p : Bytes) (s : State) : Result := .next (decFixed .rxStatus p s)

/-- DEC.RXSTATUSEVENT (R197). -/
def execRxStatusEvent (_hdr : Header) (p : Bytes) (s : State) : Result :=
  .next (decFixed .rxStatusEvent p s)

/-- DEC.TIME (R198). -/
def execTime (_hdr : Header) (p : Bytes) (s : State) : Result := .next (decFixed .time p s)

/-- DEC.BESTPOS (R199). -/
def execBestPos (_hdr : Header) (p : Bytes) (s : State) : Result := .next (decFixed .bestPos p s)

/-- DEC.HEADING2 (R200). -/
def execHeading2 (_hdr : Header) (p : Bytes) (s : State) : Result := .next (decFixed .heading2 p s)

/-- DEC.DUALHEADING (R201). -/
def execDualHeading (_hdr : Header) (p : Bytes) (s : State) : Result :=
  .next (decFixed .dualHeading p s)

/-- DEC.UNTRACKED (R202): whatever the payload. -/
def execUntracked (id : U16) (_hdr : Header) (_p : Bytes) (s : State) : Result :=
  .next (decUntracked id s)

/-- DECODE(id, payload) as R190 writes it, by the message identifier, and the end of the attempt. -/
def decodeMessage (id : U16) (p : Bytes) (s : State) : State :=
  if id = s.cfg.msgIdVersion then decCounted .version p s
  else if id = s.cfg.msgIdHwMonitor then decCounted .hwMonitor p s
  else if id = s.cfg.msgIdRxStatus then decFixed .rxStatus p s
  else if id = s.cfg.msgIdRxStatusEvent then decFixed .rxStatusEvent p s
  else if id = s.cfg.msgIdTime then decFixed .time p s
  else if id = s.cfg.msgIdBestPos then decFixed .bestPos p s
  else if id = s.cfg.msgIdHeading2 then decFixed .heading2 p s
  else if id = s.cfg.msgIdDualHeading then decFixed .dualHeading p s
  else decUntracked id s

end Sys2Proof.Machine
end

