-- ==== Sys2Proof/Machine/HostOps.lean ====
section
/-!
DEFINITION. The operations at the block's ports (44_host_operations): NOP, RESET, POLL, STOP,
SNAP, PUSH, and the Command Session's HOSTDRAIN (R281).
-/
namespace Sys2Proof.Machine

/-- The state after RESET (R270, R50): every piece of the block's state at its reset value. rx is not
touched (R332), nor are the parameters, the outside's schedule and the recorded outputs. -/
def resetState (s : State) : State :=
  { State.resetOf s.cfg with slots := s.slots, rx := s.rx, events := s.events, snapOut := s.snapOut }

/-- The start of POLL (R271): the cycle's flags cleared, control at the guard of DRAIN. -/
def pollStart (s : State) : State := { s with fresh := 0#8, valid := false, pollPhase := .guard }

/-- SNAP (R274): the snapshot is returned and nothing else changes. -/
def snapState (s : State) : State := { s with snapOut := some (snapshot s) }

/-- NOP (R280): no operation, at any time (log 8). -/
def execNop (s : State) : Result := .next s

/-- RESET (R270), when no POLL is running (R275). -/
def execReset (s : State) : Result := whenIdle "RESET" s (resetState s)

/-- POLL (R271), when no POLL is running (R282). It starts the drain and aggregate cycle, which the
block's own steps carry out (R277). -/
def execPoll (s : State) : Result := whenIdle "POLL" s (pollStart s)

/-- STOP (R279): no effect on the block; when no POLL is running (R275). -/
def execStop (s : State) : Result := whenIdle "STOP" s s

/-- SNAP (R274), when no POLL is running (R275). -/
def execSnap (s : State) : Result := whenIdle "SNAP" s (snapState s)

/-- PUSH b (R276), at any time (R277). -/
def execPush (b : Byte) (s : State) : Result := .next (rxPush b s)

/-- HOSTDRAIN (R281): the first `n` bytes of rx are removed, never during a POLL. -/
def hostDrain (n : Nat) (s : State) : Result := whenIdle "HOSTDRAIN" s { s with rx := s.rx.drop n }

end Sys2Proof.Machine
end

