-- ==== Sys2Proof/Machine/Dispatch.lean ====
section
/-!
DEFINITION. One arm per constructor of Instr, each a direct call of its meaning.
-/
namespace Sys2Proof.Machine

def exec (i : Instr) (s : State) : Host.Outcome State Fault Refusal :=
  match i with
  -- frames (42_message_decoder)
  | .version hdr p => Sys2Proof.Machine.execVersion hdr p s
  | .hwMonitor hdr p => Sys2Proof.Machine.execHwMonitor hdr p s
  | .rxStatus hdr p => Sys2Proof.Machine.execRxStatus hdr p s
  | .rxStatusEvent hdr p => Sys2Proof.Machine.execRxStatusEvent hdr p s
  | .time hdr p => Sys2Proof.Machine.execTime hdr p s
  | .bestPos hdr p => Sys2Proof.Machine.execBestPos hdr p s
  | .heading2 hdr p => Sys2Proof.Machine.execHeading2 hdr p s
  | .dualHeading hdr p => Sys2Proof.Machine.execDualHeading hdr p s
  | .untracked id hdr p => Sys2Proof.Machine.execUntracked id hdr p s
  -- operations at the ports (44_host_operations)
  | .nop => Sys2Proof.Machine.execNop s
  | .reset => Sys2Proof.Machine.execReset s
  | .poll => Sys2Proof.Machine.execPoll s
  | .stop => Sys2Proof.Machine.execStop s
  | .snap => Sys2Proof.Machine.execSnap s
  | .push b => Sys2Proof.Machine.execPush b s

end Sys2Proof.Machine
end

