-- ==== Sys2Proof/Machine/Reader.lean ====
section
/-!
DEFINITION. The Frame Reader (41_frame_reader): the start of an attempt, its eight stages, the
DRAIN loop's guard (R272), and the block's turn. A step of the block is the guard's test, FR.START,
one stage body with its ReadExactly, or AGG (R277, log 3).
-/
namespace Sys2Proof.Machine

/-- `ReadExactly(n)` at a stage (R63), and what the stage does with the bytes. A short read pops
nothing and raises ShortRead(stage) (R292). -/
def readThen (stage n : Nat) (s : State) (k : Bytes → State → Result) : Result :=
  if rxAvail s < n then .next (raise .shortRead stage s) else k (s.rx.take n) (rxPop n s)

/-- `MemWrite(addr, n, v)`, CRC.UPD for each byte of `v`, `pc <- g` (R152 to R157). -/
def store (addr : Nat) (v : Bytes) (g : Stage) (s : State) : Result :=
  if addr ≠ s.fbLen then .fault .fbWriteUndefined
  else if fbCapacity < addr + v.length then .fault .fbOutside
  else .next (setStage g (crcUpd v (fbWrite addr v s)))

/-- The comparison of a one-byte stage (R152 to R155): the byte is stored if it is the wanted one,
and otherwise the error is raised; the byte is consumed either way. -/
def matchByte (want : Byte) (e : ErrKind) (stage addr : Nat) (g : Stage) (b : Bytes) (s : State) :
    Result :=
  if b ≠ [want] then .next (raise e stage s) else store addr b g s

/-- FR.START (R151). NoFrame leaves the state as it was but for the control position. -/
def frStart (s : State) : State :=
  if rxAvail s = 0 then { s with frStage := .idle, pollPhase := .guard }
  else { crcClr s with fbLen := 0, frStage := .sync1, consumed := 0 }

/-- S_SYNC1 (R152). rx is not empty here (R151); RxPop(1) on an empty rx is undefined (R62). -/
def stageSync1 (s : State) : Result :=
  if rxAvail s < 1 then .fault .rxPopUndefined
  else matchByte sync1 .frameSyncMiss 1 0 .sync2 (s.rx.take 1) (rxPop 1 s)

/-- S_SYNC2 (R153). -/
def stageSync2 (s : State) : Result := readThen 2 1 s (matchByte sync2 .frameSyncMiss 2 1 .sync3)

/-- S_SYNC3 (R154). -/
def stageSync3 (s : State) : Result := readThen 3 1 s (matchByte sync3 .frameSyncMiss 3 2 .hlen)

/-- S_HLEN (R155). -/
def stageHlen (s : State) : Result :=
  readThen 4 1 s (matchByte hdrLenConst .headerLenMismatch 4 3 .hdr)

/-- S_HDR (R156). -/
def stageHdr (s : State) : Result := readThen 5 hdrRestLen s (fun h t => store 4 h .pay t)

/-- S_PAY (R157): `N <- LE(MemRead(8, 2), 0, 2)`. -/
def stagePay (s : State) : Result :=
  match fbRead 8 2 s with
  | none => .fault .fbReadUndefined
  | some l => readThen 6 (leNat l) s (fun p t => store headLen p .crc t)

/-- S_CRC (R158): the trailer goes to `rx_crc`. -/
def stageCrc (s : State) : Result :=
  readThen 7 crcLen s
    (fun t s' => .next (setStage .chk { s' with rxCrc := BitVec.ofNat 32 (leNat t) }))

/-- FETCHING A FRAME INSTRUCTION'S BYTES: the `28 + N` bytes of the accepted frame, which hold
`MemRead(4, 2)` and `MemRead(28, N)` of R160. -/
def fetchFrame (s : State) : Option Bytes :=
  match fbRead 8 2 s with
  | none => none
  | some l => fbRead 0 (headLen + leNat l) s

/-- S_CHK (R159, R160): the checksum comparison; on success the frame goes at once to the Message
Decoder (R190), that is, its instruction is decoded and executed. -/
def stageChk (s : State) : Result :=
  if s.crcAcc ≠ s.rxCrc then .next (raise .checksumMismatch 8 s)
  else
    match fetchFrame s with
    | none => .fault .fbReadUndefined
    | some body => exec (frameInstr s.cfg body) s

/-- The stage `fr_stage` names (R30, R161). -/
def attemptStep (s : State) : Result :=
  match s.frStage with
  | .idle => .next (frStart s)
  | .sync1 => stageSync1 s
  | .sync2 => stageSync2 s
  | .sync3 => stageSync3 s
  | .hlen => stageHlen s
  | .hdr => stageHdr s
  | .pay => stagePay s
  | .crc => stageCrc s
  | .chk => stageChk s

/-- The guard of DRAIN (R272): an attempt while rx holds a byte, AGG once it is empty. -/
def drainGuard (s : State) : State :=
  if 0 < rxAvail s then { s with pollPhase := .attempt } else { s with pollPhase := .aggregate }

/-- The block's turn: nothing when no POLL is running (R271, R331), else its next step. -/
def blockTurn (s : State) : Result :=
  match s.pollPhase with
  | .idle => .next s
  | .guard => .next (drainGuard s)
  | .attempt => attemptStep s
  | .aggregate => .next (aggregate s)

/-- What one slot of the outside does (log 2). -/
def slotTurn (sl : Slot) (s : State) : Result :=
  match sl with
  | .quiet => blockTurn s
  | .port a => exec (decodePort a) s
  | .hostDrain n => hostDrain n s

/-- One turn of the machine: the next slot of the outside, or the block's turn when the outside does
nothing any more. -/
def turn (s : State) : Result :=
  match s.slots with
  | [] => blockTurn s
  | sl :: t => slotTurn sl { s with slots := t }

/-- The machine with an encoded instruction put where its next turn takes it from (log 16): a port
access as the next slot; a frame as an attempt that has read it all and stands at S_CHK, its bytes
in fb, its trailer in `rx_crc`, the checksum of its bytes in `crc_acc`. -/
def placeWire (w : Wire) (s : State) : State :=
  match w with
  | .port a => { s with slots := .port a :: s.slots }
  | .frame bytes =>
    let body := bytes.take (bytes.length - crcLen)
    { s with
      slots := match s.slots with
        | [] => []
        | sl :: t => .quiet :: sl :: t
      pollPhase := .attempt
      frStage := .chk
      fb := Memory.writeBytes [] 0 body
      fbLen := body.length
      crcAcc := crc32 body
      rxCrc := BitVec.ofNat 32 (leNat (bytes.drop (bytes.length - crcLen)))
      consumed := bytes.length }

end Sys2Proof.Machine
end

