-- ==== Sys2Proof/Machine/Step.lean ====
section
/-!
DEFINITION. One step of the machine: a parameter set that breaks R5 or R101 is refused (U4, U5,
log 9); otherwise the turn. And the placing of an instruction where the next step runs it.
-/
namespace Sys2Proof.Machine

/-- One step. -/
def step (s : State) : Host.Outcome State Fault Refusal :=
  if s.cfg.wf then turn s else .refused .illFormedConfig

/-- `s` with the instruction of the opcode table's bits `w` placed where step takes its next
instruction from (log 16); `s` itself where the table's bits stand for no encoding. -/
def State.withFetchWord (s : State) (nbits w : Nat) : State :=
  match tableWire nbits w with
  | none => s
  | some wire => placeWire wire s

end Sys2Proof.Machine
end

