-- ==== Sys2Proof/Machine/Quiescent.lean ====
section
/-!
DEFINITION. The quiescent POLL as a function (R278): the fold of `attempt` (R165) and DECODE
(R190) over rx until it is empty, then AGG. It is the reference the stepwise machine is compared
with; step does not use it.
-/
namespace Sys2Proof.Machine

/-- The state after one frame attempt on a frozen rx, without the Frame Reader's working registers:
the bytes consumed are gone from rx and the attempt has ended with its result (R165, R272). -/
def attemptOnce (s : State) : State :=
  match readFrame s.rx with
  | (.frame body, rest) =>
    decodeMessage (frameId body) (framePayload body)
      { s with rx := rest, consumed := s.rx.length - rest.length }
  | (.err e st, rest) => raise e st { s with rx := rest, consumed := s.rx.length - rest.length }
  | (.noFrame, _) => s

/-- DRAIN on a frozen rx, at most `n` passes (R272, R273). -/
def drainAll : Nat → State → State
  | 0, s => s
  | n + 1, s => if rxAvail s = 0 then s else drainAll n (attemptOnce s)

/-- `poll(state, rx)` of R278. -/
def pollQuiescent (s : State) : State := aggregate (drainAll (rxAvail s) (pollStart s))

/-- The state with the registers that are dead between attempts (R35, R163) blanked, so that two
states can be compared in everything else. -/
def eraseDead (s : State) : State :=
  { s with crcAcc := 0#32, fb := [], fbLen := 0, rxCrc := 0#32, consumed := 0 }

end Sys2Proof.Machine
end

