-- ==== Sys2Proof/Safety.lean ====
section
/-!
DEFINITION. What a good state is, in the terms the statements use: the shapes the holders keep,
what the Frame Reader's registers hold at each stage, what the derived flags mean between POLLs, and
the groups of fields an instruction may leave unchanged.
-/
namespace Sys2Proof.Safety
open Sys2Proof.Machine

/-- R23, R24: a store holds at most its capacity, has one place for each element, and every element
has its size. -/
structure StoreOk (cap size : Nat) (st : CountedStore) : Prop where
  count_le : st.count ≤ cap
  room : st.elems.length = cap
  sizes : ∀ e ∈ st.elems, e.length = size

/-- R22 to R24: every holder has its shape. -/
structure HoldersOk (s : State) : Prop where
  version : StoreOk s.cfg.versionCap versionRecSize s.version
  hwMonitor : StoreOk s.cfg.hwMonCap hwMonRecSize s.hwMonitor
  fixed : ∀ k : FixedKind, (getFixed k s).length = fixedSize s.cfg k

/-- The frame buffer holds `len` bytes of this attempt, `b`, which begin with `lead`, and `crc_acc` is
their checksum (R31, R32, R134). -/
structure Holds (s : State) (lead : Bytes) (len : Nat) (b : Bytes) : Prop where
  fbLen : s.fbLen = len
  bytes : Memory.readBytes s.fb 0 len = some b
  lead : lead <+: b
  crc : s.crcAcc = crc32 b

/-- What the Frame Reader's registers hold when stage `g` of an attempt is about to run (R67, R161,
R162). -/
def StageOk (g : Stage) (s : State) : Prop :=
  match g with
  | .idle => True
  | .sync1 => s.rx ≠ [] ∧ s.consumed = 0 ∧ Holds s [] 0 []
  | .sync2 => s.consumed = 1 ∧ ∃ b, Holds s [sync1] 1 b
  | .sync3 => s.consumed = 2 ∧ ∃ b, Holds s [sync1, sync2] 2 b
  | .hlen => s.consumed = 3 ∧ ∃ b, Holds s [sync1, sync2, sync3] 3 b
  | .hdr => s.consumed = 4 ∧ ∃ b, Holds s frameLead 4 b
  | .pay => s.consumed = headLen ∧ ∃ b, Holds s frameLead headLen b
  | .crc => s.consumed = s.fbLen ∧ ∃ b, Holds s frameLead (headLen + frameLen b) b
  | .chk => s.consumed = s.fbLen + crcLen ∧ ∃ b, Holds s frameLead (headLen + frameLen b) b

/-- R30, R35, R161: outside an attempt the stage is S_IDLE; inside one the registers hold what the
stage needs. An attempt begins only when rx holds a byte (R272). -/
def ReaderOk (s : State) : Prop :=
  match s.pollPhase with
  | .attempt => StageOk s.frStage s ∧ (s.frStage = .idle → s.rx ≠ [])
  | _ => s.frStage = .idle

/-- R41, R245 (e): while a POLL runs `valid` is false, and `valid` means that the stored records are
those of an accepted fix. -/
structure ValidOk (s : State) : Prop where
  running : s.pollPhase ≠ .idle → s.valid = false
  no_error : s.valid = true → errorWord s = 0
  no_antenna : s.valid = true → antFault s = false
  no_integrity : s.valid = true → integFault s = false
  best : s.valid = true → s.bestOk = true ∧ bestAccepted s = true
  heading : s.valid = true → s.hdgOk = true ∧ headingAccepted s = true
  type : s.valid = true → typeAccepted s = true
  no_reason : s.valid = true → s.reason = .none

/-- R239, R240, R245 (c), R352: between POLLs `jamming` and `spoofing` follow the stored
receiver-status record, but where a device fault has held them. -/
def FlagsFollowRecord (s : State) : Prop :=
  s.pollPhase = .idle → (errorWord s = 0 ∨ s.cfg.abortSkipsFlags = false) →
    s.jamming = jammingSeen s ∧ s.spoofing = spoofingSeen s

/-- R25, R237: when one heading kind alone is fresh, `hdg_last` names it. -/
def HeadingLastOk (s : State) : Prop :=
  (isFresh .heading2 s = true → isFresh .dualHeading s = false → s.hdgLast = false) ∧
  (isFresh .dualHeading s = true → isFresh .heading2 s = false → s.hdgLast = true)

/-- `n` steps of the machine, stopping at the first fault or refusal. -/
def runSteps : Nat → State → Result
  | 0, s => .next s
  | n + 1, s =>
    match step s with
    | .next t => runSteps n t
    | .fault f => .fault f
    | .refused r => .refused r

/-- The eight holders and `hdg_last` are the same. -/
structure SameRecords (s t : State) : Prop where
  version : t.version = s.version
  hwMonitor : t.hwMonitor = s.hwMonitor
  fixed : ∀ k : FixedKind, getFixed k t = getFixed k s
  hdgLast : t.hdgLast = s.hdgLast

/-- The derived flags are the same (R41 to R44). -/
structure SameFlags (s t : State) : Prop where
  valid : t.valid = s.valid
  jamming : t.jamming = s.jamming
  spoofing : t.spoofing = s.spoofing
  reason : t.reason = s.reason
  bestOk : t.bestOk = s.bestOk
  hdgOk : t.hdgOk = s.hdgOk

/-- The Frame Reader's working registers other than `fr_stage` are the same; every byte of fb reads
as before. -/
structure SameReader (s t : State) : Prop where
  crcAcc : t.crcAcc = s.crcAcc
  fb : ∀ a, Memory.read t.fb a = Memory.read s.fb a
  fbLen : t.fbLen = s.fbLen
  rxCrc : t.rxCrc = s.rxCrc
  consumed : t.consumed = s.consumed

/-- The parameters, the outside's schedule and SNAP's record are the same. -/
structure SameOutside (s t : State) : Prop where
  cfg : t.cfg = s.cfg
  slots : t.slots = s.slots
  snapOut : t.snapOut = s.snapOut

end Sys2Proof.Safety
end

