-- ==== Sys2Proof/Certificates/Slice0/Obligations.lean ====
section
/-!
DEFINITION. The statements about the block, from the numbered rules of the spec. Each docstring
names the rules it rests on. Where a statement gives a whole next state, the fields it does not name
are unchanged: that is its frame. The fields events, consumed, pollPhase, slots, snapOut and cfg are
how this model writes down the event stream (R45), the local of R272, the control position of R271
and R272, the outside, SNAP's answer and the parameters (logs 11, 13, 14, 2, 12, 1).
-/
open Sys2Proof Sys2Proof.Machine Sys2Proof.Safety

/-! ## Checksum Unit (40_checksum) -/

/-- From R131, R132, R135: the byte enters the low eight bits, then eight times shift right and
exclusive-or the polynomial when the bit shifted out was 1; `crc32` folds this from 0; the values
of the worked example and the reference values. That bit 0 is tested and the shift is to the
right is the spec's own reading of "standard reflected" (its decision D37, log 17). -/
def Obligations.CrcStepsByEightReflectedShifts : Prop :=
  (∀ c : U32, crcShift c = if c.getLsbD 0 = true then (c >>> 1) ^^^ 0xEDB88320#32 else c >>> 1) ∧
  (∀ (c : U32) (b : Byte), crcStep c b =
    crcShift (crcShift (crcShift (crcShift (crcShift (crcShift (crcShift (crcShift
      (c ^^^ b.setWidth 32))))))))) ∧
  (∀ s : Bytes, crc32 s = s.foldl crcStep 0#32) ∧
  crcStep 0#32 0x00#8 = 0x00000000#32 ∧ crcStep 0#32 0x01#8 = 0x77073096#32 ∧
  crcShift 0x00000001#32 = 0xEDB88320#32 ∧ crcShift 0xEDB88320#32 = 0x76DC4190#32 ∧
  crcShift 0x76DC4190#32 = 0x3B6E20C8#32 ∧ crcShift 0x3B6E20C8#32 = 0x1DB71064#32 ∧
  crcShift 0x1DB71064#32 = 0x0EDB8832#32 ∧ crcShift 0x0EDB8832#32 = 0x076DC419#32 ∧
  crcShift 0x076DC419#32 = 0xEE0E612C#32 ∧ crcShift 0xEE0E612C#32 = 0x77073096#32 ∧
  crc32 [] = 0x00000000#32 ∧
  crc32 [0x00] = 0x00000000#32 ∧
  crc32 [0x01] = 0x77073096#32 ∧
  crc32 [0x80] = 0xEDB88320#32 ∧
  crc32 [0xFF] = 0x2D02EF8D#32 ∧
  crc32 [0xAA] = 0x36034AF6#32 ∧
  crc32 [0xAA, 0x44, 0x12, 0x1C] = 0x39B0F0E1#32 ∧
  crc32 [0x00, 0x00, 0x01] = 0x77073096#32 ∧
  crc32 [0x31, 0x32, 0x33, 0x34, 0x35, 0x36, 0x37, 0x38, 0x39] = 0x2DFD2D88#32

/-- From R133, R134: CRC.CLR zeroes the register; CRC.UPD steps it; after the bytes `v` since
CRC.CLR it holds `crc32(v)` (which R134 derives); nothing else changes. -/
def Obligations.ChecksumRegisterFollowsTheBytes : Prop :=
  (∀ s : State, crcClr s = { s with crcAcc := 0#32 }) ∧
  (∀ (s : State) (b : Byte), crcUpd [b] s = { s with crcAcc := crcStep s.crcAcc b }) ∧
  (∀ (s : State) (v w : Bytes), crcUpd w (crcUpd v s) = crcUpd (v ++ w) s) ∧
  (∀ (s : State) (v : Bytes), crcUpd v (crcClr s) = { s with crcAcc := crc32 v }) ∧
  crc32 [0xAA] = 0x36034AF6#32 ∧ crc32 [0xAA, 0x44] = 0x2559D1EA#32 ∧
  crc32 [0xAA, 0x44, 0x12] = 0xB34323FF#32 ∧ crc32 [0xAA, 0x44, 0x12, 0x1C] = 0x39B0F0E1#32

/-- From R136, which the spec derives from R131: the table form of `crc_step`, and the table
entries the rule lists. -/
def Obligations.CrcTableFormAgrees : Prop :=
  (∀ (c : U32) (b : Byte), crcStep c b =
    (c >>> 8) ^^^ crcStep 0#32 (((c ^^^ b.setWidth 32) &&& 0xFF#32).setWidth 8)) ∧
  crcStep 0#32 0#8 = 0x00000000#32 ∧ crcStep 0#32 1#8 = 0x77073096#32 ∧
  crcStep 0#32 2#8 = 0xEE0E612C#32 ∧ crcStep 0#32 3#8 = 0x990951BA#32 ∧
  crcStep 0#32 4#8 = 0x076DC419#32 ∧ crcStep 0#32 8#8 = 0x0EDB8832#32 ∧
  crcStep 0#32 16#8 = 0x1DB71064#32 ∧ crcStep 0#32 128#8 = 0xEDB88320#32 ∧
  crcStep 0#32 255#8 = 0x2D02EF8D#32

/-- From R137, which the spec derives from R131 and R132: linearity over strings of equal length;
leading zeros do not count; a string followed by its checksum has checksum 0; composition. -/
def Obligations.CrcArithmeticLaws : Prop :=
  (∀ a b : Bytes, a.length = b.length →
    crc32 (List.zipWith (· ^^^ ·) a b) = crc32 a ^^^ crc32 b) ∧
  (∀ (n : Nat) (s : Bytes), crc32 (List.replicate n 0#8 ++ s) = crc32 s) ∧
  (∀ s : Bytes, crc32 (s ++ le32 (crc32 s)) = 0#32) ∧
  (∀ a b : Bytes, crc32 (a ++ b) = b.foldl crcStep (crc32 a))

/-- From R138, which the spec derives: two strings of equal length that differ only inside a
window of 32 consecutive bits, wherever it begins, have different checksums; so do two that
differ only inside at most four consecutive bytes, any one byte among them. The bits of a string
are counted from bit 0 of each byte, the order in which they enter the checksum (DEDUCED, log
22). -/
def Obligations.CrcDetectsChangeWithinFourBytes : Prop :=
  (∀ (a b : Bytes) (k : Nat), a.length = b.length → a ≠ b →
    (∀ j, streamBit a j ≠ streamBit b j → k ≤ j ∧ j < k + 32) → crc32 a ≠ crc32 b) ∧
  (∀ p w w' q : Bytes, w.length = w'.length → w.length ≤ 4 → w ≠ w' →
    crc32 (p ++ w ++ q) ≠ crc32 (p ++ w' ++ q))

/-- R294's property, R138: a frame with one payload byte changed after its checksum was computed
is refused with ChecksumMismatch at stage 8 and is wholly consumed. -/
def Obligations.FlippedPayloadByteIsChecksumMismatch : Prop :=
  ∀ (id : U16) (h : Header) (p rest : Bytes) (i : Nat) (b : Byte), p.length ≤ 65535 →
    i < p.length → p[i]? ≠ some b →
    readFrame (frameBody id h (p.set i b) ++ le32 (crc32 (frameBody id h p)) ++ rest) =
      (.err .checksumMismatch 8, rest)

/-! ## The frame buffer (20_memory) -/

/-- From R66: MemWrite at `fb_len` grows `fb_len` by the bytes stored; they read back; every
range below reads as before; reads beyond `fb_len` are not defined. -/
def Obligations.FrameBufferReadsBackWhatWasStored : Prop :=
  ∀ (s : State) (v : Bytes),
    (fbWrite s.fbLen v s).fbLen = s.fbLen + v.length ∧
    fbRead s.fbLen v.length (fbWrite s.fbLen v s) = some v ∧
    (∀ a n, a + n ≤ s.fbLen → fbRead a n (fbWrite s.fbLen v s) = fbRead a n s) ∧
    (∀ a n, s.fbLen < a + n → fbRead a n s = none)

/-! ## Encoding (30_encoding, R280) -/

/-- R280: the command codes, the snapshot-port read and the receive-port write, decoded and
encoded. -/
def Obligations.PortCodesDecodeAndEncode : Prop :=
  decodePort (.command 0#2) = .nop ∧ decodePort (.command 1#2) = .reset ∧
  decodePort (.command 2#2) = .poll ∧ decodePort (.command 3#2) = .stop ∧
  decodePort .snapshotRead = .snap ∧ (∀ b, decodePort (.receiveWrite b) = .push b) ∧
  ∀ c : Config, encode c .nop = .port (.command 0#2) ∧ encode c .reset = .port (.command 1#2) ∧
    encode c .poll = .port (.command 2#2) ∧ encode c .stop = .port (.command 3#2) ∧
    encode c .snap = .port .snapshotRead ∧ ∀ b, encode c (.push b) = .port (.receiveWrite b)

/-- Frames the spec dumps byte by byte (95_test_vectors 3.1: F_MIN, F_2, F_HW1) decode to the
instructions they stand for under P0. The identifiers are P0's, which is the model's choice of
instance (log 1). -/
def Obligations.DumpedFramesDecode : Prop :=
  decode Config.p0 (.frame
    [0xAA, 0x44, 0x12, 0x1C, 0x01, 0x00, 0x00, 0x00, 0x00, 0x00, 0x00, 0x00, 0x00, 0x00, 0x00, 0x00,
     0x00, 0x00, 0x00, 0x00, 0x00, 0x00, 0x00, 0x00, 0x00, 0x00, 0x00, 0x00, 0xB0, 0x74, 0xFB, 0x90])
    = .ok (.untracked 1#16 Header.zero []) ∧
  decode Config.p0 (.frame
    [0xAA, 0x44, 0x12, 0x1C, 0x34, 0x12, 0x00, 0x00, 0x02, 0x00, 0x01, 0x00, 0x00, 0x00, 0x00, 0x00,
     0x00, 0x00, 0x00, 0x00, 0x00, 0x00, 0x00, 0x00, 0x00, 0x00, 0x00, 0x00, 0xDE, 0xAD, 0xD7, 0x94,
     0x39, 0x6F])
    = .ok (.untracked 0x1234#16 { Header.zero with sequence := 1#16 } [0xDE, 0xAD]) ∧
  decode Config.p0 (.frame
    [0xAA, 0x44, 0x12, 0x1C, 0xC3, 0x03, 0x00, 0x20, 0x0C, 0x00, 0x00, 0x00, 0x00, 0xB4, 0x8C, 0x09,
     0x78, 0xE0, 0x01, 0x00, 0x00, 0x00, 0x00, 0x00, 0x00, 0x00, 0x00, 0x00, 0x01, 0x00, 0x00, 0x00,
     0x00, 0x00, 0x1A, 0x42, 0x00, 0x01, 0x00, 0x00, 0x3F, 0xC3, 0xCA, 0x01])
    = .ok (.hwMonitor
        { Header.zero with port := 0x20#8, timeStatus := 0xB4#8, week := 2444#16, ms := 123000#32 }
        [0x01, 0x00, 0x00, 0x00, 0x00, 0x00, 0x1A, 0x42, 0x00, 0x01, 0x00, 0x00])

/-- R90, R91, R95, R100, R280: decoding the encoding of a well-formed instruction gives it back,
with every operand at every value, under every parameter set. -/
def Obligations.DecodeEncodeRoundTrip : Prop :=
  ∀ (c : Config) (i : Instr), c.wf = true → i.wf c = true → decode c (encode c i) = .ok i

/-- R90, R91, R93, R95: the reader takes exactly a frame's bytes from the head of the stream, and
finds in them the identifier, the header fields and the payload they were built from. -/
def Obligations.FrameBytesReadBack : Prop :=
  ∀ (id : U16) (h : Header) (p rest : Bytes), p.length ≤ 65535 →
    readFrame (frameBytes id h p ++ rest) = (.frame (frameBody id h p), rest) ∧
    frameId (frameBody id h p) = id ∧ headerOf (frameBody id h p) = h ∧
    frameLen (frameBody id h p) = p.length ∧ framePayload (frameBody id h p) = p

/-- R90, R95, R104: bytes the reader accepts are one frame of R90 with its own trailer, so
accepted bytes have one meaning. -/
def Obligations.AcceptedBytesAreOneFrame : Prop :=
  ∀ (rx body rest : Bytes), readFrame rx = (.frame body, rest) →
    rx = frameBytes (frameId body) (headerOf body) (framePayload body) ++ rest ∧
    body = frameBody (frameId body) (headerOf body) (framePayload body) ∧
    (framePayload body).length ≤ 65535

/-- R100, R102: each of the eight identifiers selects its own kind; any other is untracked. -/
def Obligations.MessageIdSelectsKind : Prop :=
  ∀ (c : Config) (h : Header) (p : Bytes), c.idsDistinct = true →
    selectInstr c c.msgIdVersion h p = .version h p ∧
    selectInstr c c.msgIdHwMonitor h p = .hwMonitor h p ∧
    selectInstr c c.msgIdRxStatus h p = .rxStatus h p ∧
    selectInstr c c.msgIdRxStatusEvent h p = .rxStatusEvent h p ∧
    selectInstr c c.msgIdTime h p = .time h p ∧
    selectInstr c c.msgIdBestPos h p = .bestPos h p ∧
    selectInstr c c.msgIdHeading2 h p = .heading2 h p ∧
    selectInstr c c.msgIdDualHeading h p = .dualHeading h p ∧
    ∀ id : U16, (∀ k : Kind, id ≠ kindMsgId c k) → selectInstr c id h p = .untracked id h p

/-! ## Frame instructions (42_message_decoder) -/

/-- From R196 to R199: RXSTATUS, RXSTATUSEVENT, TIME, BESTPOS. A payload of exactly the kind's
size overwrites the holder and sets the kind's `fresh` bit; any other raises SizeMismatch(9) and
changes no record. Either way the attempt ends: `fr_stage` is S_IDLE, control is at the guard of
DRAIN, the event is emitted, and nothing else changes. `time_valid` follows a new TIME record.
That a frame instruction ends the attempt in whatever state it is executed is the model's (log
20, DEDUCED); the control position is log 14 and the recorded event log 11. -/
def Obligations.FixedRecordFramesCommitOrRaise : Prop :=
  ∀ (hdr : Header) (p : Bytes) (s : State),
    (p.length = 88 → exec (.rxStatus hdr p) s = .next { s with
        rxStatus := p, fresh := s.fresh ||| 0x04#8, frStage := .idle, pollPhase := .guard,
        events := s.events ++ [.attempt s.consumed (.ok .rxStatus)] }) ∧
    (p.length ≠ 88 → exec (.rxStatus hdr p) s = .next { s with
        frStage := .idle, pollPhase := .guard,
        events := s.events ++ [.attempt s.consumed (.err .sizeMismatch 9)] }) ∧
    (p.length = s.cfg.sizeRxStatusEvent → exec (.rxStatusEvent hdr p) s = .next { s with
        rxStatusEvent := p, fresh := s.fresh ||| 0x08#8, frStage := .idle, pollPhase := .guard,
        events := s.events ++ [.attempt s.consumed (.ok .rxStatusEvent)] }) ∧
    (p.length ≠ s.cfg.sizeRxStatusEvent → exec (.rxStatusEvent hdr p) s = .next { s with
        frStage := .idle, pollPhase := .guard,
        events := s.events ++ [.attempt s.consumed (.err .sizeMismatch 9)] }) ∧
    (p.length = s.cfg.sizeTime → ∃ t, exec (.time hdr p) s = .next t ∧ t = { s with
        time := p, fresh := s.fresh ||| 0x10#8, frStage := .idle, pollPhase := .guard,
        events := s.events ++ [.attempt s.consumed (.ok .time)] } ∧
        timeValid t = timeValidOf s.cfg p) ∧
    (p.length ≠ s.cfg.sizeTime → exec (.time hdr p) s = .next { s with
        frStage := .idle, pollPhase := .guard,
        events := s.events ++ [.attempt s.consumed (.err .sizeMismatch 9)] }) ∧
    (p.length = s.cfg.sizeBestPos → exec (.bestPos hdr p) s = .next { s with
        bestPos := p, fresh := s.fresh ||| 0x20#8, frStage := .idle, pollPhase := .guard,
        events := s.events ++ [.attempt s.consumed (.ok .bestPos)] }) ∧
    (p.length ≠ s.cfg.sizeBestPos → exec (.bestPos hdr p) s = .next { s with
        frStage := .idle, pollPhase := .guard,
        events := s.events ++ [.attempt s.consumed (.err .sizeMismatch 9)] })

/-- From R200, R201: HEADING2 and DUALHEADING. A payload of exactly the kind's size overwrites
the kind's own holder, sets its `fresh` bit, and sets `hdg_last` to 0 for HEADING2 and to 1 for
DUALHEADING; any other raises SizeMismatch(9) and changes no record. The attempt ends, and
nothing else changes, the other heading's holder included. That a frame instruction ends the
attempt in whatever state it is executed is the model's (log 20, DEDUCED); the control position
is log 14 and the recorded event log 11. -/
def Obligations.HeadingFramesCommitOrRaise : Prop :=
  ∀ (hdr : Header) (p : Bytes) (s : State),
    (p.length = s.cfg.sizeHeading2 → exec (.heading2 hdr p) s = .next { s with
        heading2 := p, fresh := s.fresh ||| 0x40#8, hdgLast := false,
        frStage := .idle, pollPhase := .guard,
        events := s.events ++ [.attempt s.consumed (.ok .heading2)] }) ∧
    (p.length ≠ s.cfg.sizeHeading2 → exec (.heading2 hdr p) s = .next { s with
        frStage := .idle, pollPhase := .guard,
        events := s.events ++ [.attempt s.consumed (.err .sizeMismatch 9)] }) ∧
    (p.length = s.cfg.sizeDualHeading → exec (.dualHeading hdr p) s = .next { s with
        dualHeading := p, fresh := s.fresh ||| 0x80#8, hdgLast := true,
        frStage := .idle, pollPhase := .guard,
        events := s.events ++ [.attempt s.consumed (.ok .dualHeading)] }) ∧
    (p.length ≠ s.cfg.sizeDualHeading → exec (.dualHeading hdr p) s = .next { s with
        frStage := .idle, pollPhase := .guard,
        events := s.events ++ [.attempt s.consumed (.err .sizeMismatch 9)] })

/-- From R194, R193: VERSION. A payload shorter than 4 bytes raises SizeMismatch; then a count
above the capacity raises CapacityExceeded; then a length other than 4 + 96 * count raises
SizeMismatch; else the count and the first `count` elements are written, later elements keep what
they held, and `fresh[0]` is set. The attempt ends, and nothing else changes. The order of the
checks is the spec's decision D13 (log 17). That a frame instruction ends the attempt in whatever
state it is executed is the model's (log 20, DEDUCED); the control position is log 14 and the
recorded event log 11. -/
def Obligations.VersionFrameCommitsOrRaises : Prop :=
  ∀ (hdr : Header) (p : Bytes) (s : State),
    (p.length < 4 → exec (.version hdr p) s = .next { s with
        frStage := .idle, pollPhase := .guard,
        events := s.events ++ [.attempt s.consumed (.err .sizeMismatch 9)] }) ∧
    (4 ≤ p.length → s.cfg.versionCap < leAt p 0 4 → exec (.version hdr p) s = .next { s with
        frStage := .idle, pollPhase := .guard,
        events := s.events ++ [.attempt s.consumed (.err .capacityExceeded 9)] }) ∧
    (4 ≤ p.length → leAt p 0 4 ≤ s.cfg.versionCap → p.length ≠ 4 + leAt p 0 4 * 96 →
      exec (.version hdr p) s = .next { s with
        frStage := .idle, pollPhase := .guard,
        events := s.events ++ [.attempt s.consumed (.err .sizeMismatch 9)] }) ∧
    (leAt p 0 4 ≤ s.cfg.versionCap → p.length = 4 + leAt p 0 4 * 96 →
      ∃ st : CountedStore,
        exec (.version hdr p) s = .next { s with
          version := st, fresh := s.fresh ||| 0x01#8, frStage := .idle, pollPhase := .guard,
          events := s.events ++ [.attempt s.consumed (.ok .version)] } ∧
        st.count = leAt p 0 4 ∧
        (∀ i, i < leAt p 0 4 → st.elems[i]? = some (slice p (4 + 96 * i) 96)) ∧
        (∀ i, leAt p 0 4 ≤ i → st.elems[i]? = s.version.elems[i]?))

/-- From R195, R193: HWMONITOR. A payload shorter than 4 bytes raises SizeMismatch; then a count
above the capacity raises CapacityExceeded; then a length other than 4 + 8 * count raises
SizeMismatch; else the count and the first `count` elements are written, later elements keep what
they held, and `fresh[1]` is set. The attempt ends, and nothing else changes. The order of the
checks is the spec's decision D13 (log 17). That a frame instruction ends the attempt in whatever
state it is executed is the model's (log 20, DEDUCED); the control position is log 14 and the
recorded event log 11. -/
def Obligations.HwMonitorFrameCommitsOrRaises : Prop :=
  ∀ (hdr : Header) (p : Bytes) (s : State),
    (p.length < 4 → exec (.hwMonitor hdr p) s = .next { s with
        frStage := .idle, pollPhase := .guard,
        events := s.events ++ [.attempt s.consumed (.err .sizeMismatch 9)] }) ∧
    (4 ≤ p.length → s.cfg.hwMonCap < leAt p 0 4 → exec (.hwMonitor hdr p) s = .next { s with
        frStage := .idle, pollPhase := .guard,
        events := s.events ++ [.attempt s.consumed (.err .capacityExceeded 9)] }) ∧
    (4 ≤ p.length → leAt p 0 4 ≤ s.cfg.hwMonCap → p.length ≠ 4 + leAt p 0 4 * 8 →
      exec (.hwMonitor hdr p) s = .next { s with
        frStage := .idle, pollPhase := .guard,
        events := s.events ++ [.attempt s.consumed (.err .sizeMismatch 9)] }) ∧
    (leAt p 0 4 ≤ s.cfg.hwMonCap → p.length = 4 + leAt p 0 4 * 8 →
      ∃ st : CountedStore,
        exec (.hwMonitor hdr p) s = .next { s with
          hwMonitor := st, fresh := s.fresh ||| 0x02#8, frStage := .idle, pollPhase := .guard,
          events := s.events ++ [.attempt s.consumed (.ok .hwMonitor)] } ∧
        st.count = leAt p 0 4 ∧
        (∀ i, i < leAt p 0 4 → st.elems[i]? = some (slice p (4 + 8 * i) 8)) ∧
        (∀ i, leAt p 0 4 ≤ i → st.elems[i]? = s.hwMonitor.elems[i]?))

/-- From R202: UNTRACKED changes no holder, no fresh bit and no flag, whatever the payload; the
attempt ends with the result Untracked(id). That a frame instruction ends the attempt in whatever
state it is executed is the model's (log 20, DEDUCED); the control position is log 14 and the
recorded event log 11. -/
def Obligations.UntrackedFrameChangesNoRecord : Prop :=
  ∀ (id : U16) (hdr : Header) (p : Bytes) (s : State),
    exec (.untracked id hdr p) s = .next { s with
      frStage := .idle, pollPhase := .guard,
      events := s.events ++ [.attempt s.consumed (.untracked id)] }

/-- R190, R92, R204: the instruction the identifier selects does what DECODE says, whatever the
ten other header fields hold. -/
def Obligations.DecodeDispatchesByIdAlone : Prop :=
  ∀ (id : U16) (hdr hdr' : Header) (p : Bytes) (s : State),
    exec (selectInstr s.cfg id hdr p) s = .next (decodeMessage id p s) ∧
    exec (selectInstr s.cfg id hdr' p) s = exec (selectInstr s.cfg id hdr p) s

/-- From R203, which the spec derives: a frame in rx is wholly consumed, sets its kind's fresh
bit, and, for a fixed-size kind with a payload of that kind's size, leaves its payload in the
holder; for a count-prefixed kind whose payload passes R193, the count and the first `count`
elements are the payload's, and the later elements are kept. -/
def Obligations.FrameRoundTripsIntoItsHolder : Prop :=
  (∀ (s : State) (k : FixedKind) (h : Header) (p rest : Bytes), s.cfg.wf = true →
    p.length = fixedSize s.cfg k → p.length ≤ 65535 →
    s.rx = frameBytes (kindMsgId s.cfg (fixedToKind k)) h p ++ rest →
    getFixed k (attemptOnce s) = p ∧ isFresh (fixedToKind k) (attemptOnce s) = true ∧
    (attemptOnce s).rx = rest ∧
    (attemptOnce s).events = s.events ++ [.attempt (32 + p.length) (.ok (fixedToKind k))]) ∧
  (∀ (s : State) (k : CountedKind) (h : Header) (p rest : Bytes) (n : Nat), s.cfg.wf = true →
    n = leAt p 0 4 → n ≤ countedCap s.cfg k → p.length = 4 + n * countedElem k →
    p.length ≤ 65535 →
    s.rx = frameBytes (kindMsgId s.cfg (countedToKind k)) h p ++ rest →
    (getCounted k (attemptOnce s)).count = n ∧
    (∀ i, i < n → (getCounted k (attemptOnce s)).elems[i]? =
      some (slice p (4 + countedElem k * i) (countedElem k))) ∧
    (∀ i, n ≤ i → (getCounted k (attemptOnce s)).elems[i]? = (getCounted k s).elems[i]?) ∧
    isFresh (countedToKind k) (attemptOnce s) = true ∧
    (attemptOnce s).rx = rest ∧
    (attemptOnce s).events = s.events ++ [.attempt (32 + p.length) (.ok (countedToKind k))])

/-! ## Operations at the ports (44_host_operations) -/

/-- R276: PUSH appends one byte to rx, at any time, and has no other effect. -/
def Obligations.PushAppendsOneByte : Prop :=
  ∀ (b : Byte) (s : State), exec (.push b) s = .next { s with rx := s.rx ++ [b] }

/-- R279: STOP has no effect on the block. -/
def Obligations.StopHasNoEffect : Prop :=
  ∀ s : State, s.pollPhase = .idle → exec .stop s = .next s

/-- R280 (NOP is "no operation"); that it is so in every phase is the model's (log 8). -/
def Obligations.NopHasNoEffect : Prop :=
  ∀ s : State, exec .nop s = .next s

/-- R270, R50: RESET puts every piece of the block's state at its reset value and leaves rx; the
contents of fb are unspecified. -/
def Obligations.ResetSetsTheSpecifiedValues : Prop :=
  ∀ s : State, s.pollPhase = .idle → ∃ t, exec .reset s = .next t ∧
    t.rxStatus = List.replicate 88 0#8 ∧
    t.rxStatusEvent = List.replicate s.cfg.sizeRxStatusEvent 0#8 ∧
    t.time = List.replicate s.cfg.sizeTime 0#8 ∧
    t.bestPos = List.replicate s.cfg.sizeBestPos 0#8 ∧
    t.heading2 = List.replicate s.cfg.sizeHeading2 0#8 ∧
    t.dualHeading = List.replicate s.cfg.sizeDualHeading 0#8 ∧
    t.version.count = 0 ∧ t.hwMonitor.count = 0 ∧
    t.version.elems = List.replicate s.cfg.versionCap (List.replicate 96 0#8) ∧
    t.hwMonitor.elems = List.replicate s.cfg.hwMonCap (List.replicate 8 0#8) ∧
    t.hdgLast = false ∧ t.fresh = 0#8 ∧ t.valid = false ∧ t.jamming = false ∧ t.spoofing = false ∧
    t.bestOk = false ∧ t.hdgOk = false ∧ t.reason = .none ∧ t.frStage = .idle ∧
    t.crcAcc = 0#32 ∧ t.fbLen = 0 ∧ t.rxCrc = 0#32 ∧ t.rx = s.rx ∧
    timeValid t = timeValidOf s.cfg (List.replicate s.cfg.sizeTime 0#8)

/-- The model's own fields under RESET (logs 1, 2, 5, 11, 12, 13, 14): the parameters, the
outside's schedule and the recorded outputs stay; no POLL is running; fb holds no byte. -/
def Obligations.ResetKeepsTheOutside : Prop :=
  ∀ s : State, s.pollPhase = .idle → ∃ t, exec .reset s = .next t ∧
    t.cfg = s.cfg ∧ t.slots = s.slots ∧ t.events = s.events ∧ t.snapOut = s.snapOut ∧
    t.pollPhase = .idle ∧ t.consumed = 0 ∧ ∀ a, Memory.read t.fb a = none

/-- R271, R40, R41: POLL clears `fresh` and `valid` and goes to the guard of DRAIN (the model's
control position, log 14); nothing else changes at its start. -/
def Obligations.PollClearsTheCycleFlags : Prop :=
  ∀ s : State, s.pollPhase = .idle →
    exec .poll s = .next { s with fresh := 0#8, valid := false, pollPhase := .guard }

/-- R274: SNAP returns the eight holders, `hdg_last`, the flags and `time_valid`; it changes
nothing but the model's record of what it returned (log 12); a second SNAP answers the same
state. -/
def Obligations.SnapReturnsTheSnapshot : Prop :=
  ∀ s : State, s.pollPhase = .idle → ∃ t sn, exec .snap s = .next t ∧
    t = { s with snapOut := some sn } ∧
    sn =
      { version := s.version, hwMonitor := s.hwMonitor, rxStatus := s.rxStatus,
        rxStatusEvent := s.rxStatusEvent, time := s.time, bestPos := s.bestPos,
        heading2 := s.heading2, dualHeading := s.dualHeading, hdgLast := s.hdgLast,
        fresh := s.fresh, valid := s.valid, jamming := s.jamming, spoofing := s.spoofing,
        reason := s.reason, bestOk := s.bestOk, hdgOk := s.hdgOk, timeValid := timeValid s } ∧
    exec .snap t = .next t

/-- R275, R282, R281, U3: while a POLL runs, SNAP, RESET, STOP, and (the model's reading, log 7)
POLL and HOSTDRAIN are refused. -/
def Obligations.HostOperationsRefusedDuringPoll : Prop :=
  ∀ s : State, s.pollPhase ≠ .idle →
    exec .snap s = .refused (.pollRunning "SNAP") ∧
    exec .reset s = .refused (.pollRunning "RESET") ∧
    exec .stop s = .refused (.pollRunning "STOP") ∧
    exec .poll s = .refused (.pollRunning "POLL") ∧
    ∀ n, hostDrain n s = .refused (.pollRunning "HOSTDRAIN")

/-- From R101, R5, U4, U5: a parameter set that is not well formed is refused by every step (that
step refuses it and exec does not look is log 9, DESIGN CHOICE); it is well formed exactly when
the eight identifiers are pairwise distinct, every W is 1, 2, 4 or 8, and every SIZE is at least
OFF + W of each field the block reads from that record; and distinct identifiers name at most one
kind. -/
def Obligations.IndistinctIdentifiersAreRefused : Prop :=
  (∀ s : State, s.cfg.wf = false → step s = .refused .illFormedConfig) ∧
  (∀ c : Config, c.wf = true ↔
    (∀ k j : Kind, kindMsgId c k = kindMsgId c j → k = j) ∧
    (∀ w ∈ [c.wSolStat, c.wPosType, c.wClockStat, c.wUtcStat], w = 1 ∨ w = 2 ∨ w = 4 ∨ w = 8) ∧
    c.offSolStat + c.wSolStat ≤ c.sizeBestPos ∧
    c.offSolStat + c.wSolStat ≤ c.sizeHeading2 ∧ c.offPosType + c.wPosType ≤ c.sizeHeading2 ∧
    c.offSolStat + c.wSolStat ≤ c.sizeDualHeading ∧
    c.offPosType + c.wPosType ≤ c.sizeDualHeading ∧
    c.offClockStat + c.wClockStat ≤ c.sizeTime ∧ c.offUtcStat + c.wUtcStat ≤ c.sizeTime) ∧
  (∀ (c : Config) (k j : Kind), c.idsDistinct = true → kindMsgId c k = kindMsgId c j → k = j)

/-! ## The Frame Reader, stage by stage (41_frame_reader) -/

/-- From R151: with rx empty the attempt ends with NoFrame, no event, nothing consumed; otherwise
CRC.CLR, `fb_len <- 0`, and S_SYNC1 is next. That NoFrame is the result on an empty rx is the
spec's decision D33 (log 17); that control then returns to the guard of DRAIN is the model's (log
14, DEDUCED: R272 says the case does not occur in a POLL), as is the field consumed set to 0 (log
13, DESIGN CHOICE). -/
def Obligations.AttemptStart : Prop :=
  ∀ s : State, s.frStage = .idle →
    (s.rx = [] → attemptStep s = .next { s with pollPhase := .guard }) ∧
    (s.rx ≠ [] → attemptStep s = .next { s with
      crcAcc := 0#32, fbLen := 0, frStage := .sync1, consumed := 0 })

/-- R152: at S_SYNC1 the next byte is consumed; if it is not 0xAA, FrameSyncMiss(1) is raised; if
it is, it is stored at fb address 0 and enters `crc_acc`, and S_SYNC2 is next. -/
def Obligations.StageSyncOne : Prop :=
  ∀ (s : State) (b : Byte) (t : Bytes), s.frStage = .sync1 → s.fbLen = 0 → s.rx = b :: t →
    (b ≠ 0xAA → attemptStep s = .next { s with
      rx := t, consumed := s.consumed + 1, frStage := .idle, pollPhase := .guard,
      events := s.events ++ [.attempt (s.consumed + 1) (.err .frameSyncMiss 1)] }) ∧
    (b = 0xAA → attemptStep s = .next { s with
      rx := t, consumed := s.consumed + 1, fb := Memory.write s.fb 0 b, fbLen := 1,
      crcAcc := crcStep s.crcAcc b, frStage := .sync2 })

/-- R153, R154, R155: at S_SYNC2, S_SYNC3 and S_HLEN, an empty rx raises ShortRead with the
stage's number and consumes nothing; a byte other than 0x44, 0x12, 28 is consumed and raises
FrameSyncMiss(2), FrameSyncMiss(3), HeaderLenMismatch(4); the wanted byte is consumed, stored at
fb address 1, 2, 3, enters `crc_acc`, and the next stage follows. -/
def Obligations.StagesSyncTwoToHeaderLength : Prop :=
  (∀ s : State, s.frStage = .sync2 → s.fbLen = 1 →
    (s.rx = [] → attemptStep s = .next { s with
      frStage := .idle, pollPhase := .guard,
      events := s.events ++ [.attempt s.consumed (.err .shortRead 2)] }) ∧
    (∀ b t, s.rx = b :: t → b ≠ 0x44 → attemptStep s = .next { s with
      rx := t, consumed := s.consumed + 1, frStage := .idle, pollPhase := .guard,
      events := s.events ++ [.attempt (s.consumed + 1) (.err .frameSyncMiss 2)] }) ∧
    (∀ b t, s.rx = b :: t → b = 0x44 → attemptStep s = .next { s with
      rx := t, consumed := s.consumed + 1, fb := Memory.write s.fb 1 b, fbLen := 2,
      crcAcc := crcStep s.crcAcc b, frStage := .sync3 })) ∧
  (∀ s : State, s.frStage = .sync3 → s.fbLen = 2 →
    (s.rx = [] → attemptStep s = .next { s with
      frStage := .idle, pollPhase := .guard,
      events := s.events ++ [.attempt s.consumed (.err .shortRead 3)] }) ∧
    (∀ b t, s.rx = b :: t → b ≠ 0x12 → attemptStep s = .next { s with
      rx := t, consumed := s.consumed + 1, frStage := .idle, pollPhase := .guard,
      events := s.events ++ [.attempt (s.consumed + 1) (.err .frameSyncMiss 3)] }) ∧
    (∀ b t, s.rx = b :: t → b = 0x12 → attemptStep s = .next { s with
      rx := t, consumed := s.consumed + 1, fb := Memory.write s.fb 2 b, fbLen := 3,
      crcAcc := crcStep s.crcAcc b, frStage := .hlen })) ∧
  (∀ s : State, s.frStage = .hlen → s.fbLen = 3 →
    (s.rx = [] → attemptStep s = .next { s with
      frStage := .idle, pollPhase := .guard,
      events := s.events ++ [.attempt s.consumed (.err .shortRead 4)] }) ∧
    (∀ b t, s.rx = b :: t → b ≠ 28#8 → attemptStep s = .next { s with
      rx := t, consumed := s.consumed + 1, frStage := .idle, pollPhase := .guard,
      events := s.events ++ [.attempt (s.consumed + 1) (.err .headerLenMismatch 4)] }) ∧
    (∀ b t, s.rx = b :: t → b = 28#8 → attemptStep s = .next { s with
      rx := t, consumed := s.consumed + 1, fb := Memory.write s.fb 3 b, fbLen := 4,
      crcAcc := crcStep s.crcAcc b, frStage := .hdr }))

/-- R156: S_HDR reads 24 bytes or raises ShortRead(5), leaving the too-few bytes in rx. -/
def Obligations.StageHeader : Prop :=
  ∀ s : State, s.frStage = .hdr → s.fbLen = 4 →
    (s.rx.length < 24 → attemptStep s = .next { s with
      frStage := .idle, pollPhase := .guard,
      events := s.events ++ [.attempt s.consumed (.err .shortRead 5)] }) ∧
    (∀ h t, h.length = 24 → s.rx = h ++ t → attemptStep s = .next { s with
      rx := t, consumed := s.consumed + 24, fb := Memory.writeBytes s.fb 4 h, fbLen := 28,
      crcAcc := h.foldl crcStep s.crcAcc, frStage := .pay })

/-- R157: S_PAY reads the `pay_len` bytes that header bytes 8 and 9 declare, little-endian, or
raises ShortRead(6). -/
def Obligations.StagePayload : Prop :=
  ∀ (s : State) (lo hi : Byte), s.frStage = .pay → s.fbLen = 28 →
    Memory.read s.fb 8 = some lo → Memory.read s.fb 9 = some hi →
    (s.rx.length < lo.toNat + 256 * hi.toNat → attemptStep s = .next { s with
      frStage := .idle, pollPhase := .guard,
      events := s.events ++ [.attempt s.consumed (.err .shortRead 6)] }) ∧
    (∀ p t, p.length = lo.toNat + 256 * hi.toNat → s.rx = p ++ t → attemptStep s = .next { s with
      rx := t, consumed := s.consumed + p.length, fb := Memory.writeBytes s.fb 28 p,
      fbLen := 28 + p.length, crcAcc := p.foldl crcStep s.crcAcc, frStage := .crc })

/-- R158: S_CRC reads the 4-byte little-endian trailer into `rx_crc`, which is not stored in fb
and does not enter `crc_acc`, or raises ShortRead(7). -/
def Obligations.StageTrailer : Prop :=
  ∀ s : State, s.frStage = .crc →
    (s.rx.length < 4 → attemptStep s = .next { s with
      frStage := .idle, pollPhase := .guard,
      events := s.events ++ [.attempt s.consumed (.err .shortRead 7)] }) ∧
    (∀ t0 t1 t2 t3 t, s.rx = t0 :: t1 :: t2 :: t3 :: t → attemptStep s = .next { s with
      rx := t, consumed := s.consumed + 4, rxCrc := t3 ++ t2 ++ t1 ++ t0, frStage := .chk })

/-- R160, with the comparison of R159 and the dispatch of R190: S_CHK raises ChecksumMismatch(8)
when the checksums differ; else the frame's instruction, selected by `LE(fb, 4, 2)` and carrying
the `pay_len` bytes from address 28, is executed at once. -/
def Obligations.StageCheck : Prop :=
  ∀ s : State, s.frStage = .chk →
    (s.crcAcc ≠ s.rxCrc → attemptStep s = .next { s with
      frStage := .idle, pollPhase := .guard,
      events := s.events ++ [.attempt s.consumed (.err .checksumMismatch 8)] }) ∧
    (∀ body, s.crcAcc = s.rxCrc → s.fbLen = 28 + leAt body 8 2 →
      Memory.readBytes s.fb 0 s.fbLen = some body →
      attemptStep s = exec (selectInstr s.cfg (BitVec.ofNat 16 (leAt body 4 2)) (headerOf body)
        (slice body 28 (leAt body 8 2))) s)

/-- R271, R272, R230: the guard of DRAIN begins an attempt while rx holds a byte and goes to AGG
once it is empty; AGG runs after it; when no POLL is running the block does nothing. -/
def Obligations.BlockTurnByPollPhase : Prop :=
  ∀ s : State,
    (s.pollPhase = .idle → blockTurn s = .next s) ∧
    (s.pollPhase = .guard → s.rx ≠ [] → blockTurn s = .next { s with pollPhase := .attempt }) ∧
    (s.pollPhase = .guard → s.rx = [] → blockTurn s = .next { s with pollPhase := .aggregate }) ∧
    (s.pollPhase = .attempt → blockTurn s = attemptStep s) ∧
    (s.pollPhase = .aggregate → blockTurn s = .next (aggregate s))

/-- From R162, which the spec derives from R161: what an attempt consumes: at least one byte from
the front, and exactly the number its result says, with `N = LE(rx, 8, 2)`. -/
def Obligations.AttemptConsumesByResult : Prop :=
  ∀ rx : Bytes, rx ≠ [] → ∃ n, 1 ≤ n ∧ n ≤ rx.length ∧ (readFrame rx).2 = rx.drop n ∧
    match (readFrame rx).1 with
    | .frame _ => n = 32 + leAt rx 8 2
    | .err .frameSyncMiss st => n = st ∧ 1 ≤ st ∧ st ≤ 3
    | .err .headerLenMismatch st => n = 4 ∧ st = 4
    | .err .shortRead st => 2 ≤ st ∧ st ≤ 7 ∧ (st ≤ 4 → n = st - 1) ∧ (st = 5 → n = 4) ∧
        (st = 6 → n = 28) ∧ (st = 7 → n = 28 + leAt rx 8 2)
    | .err .checksumMismatch st => n = 32 + leAt rx 8 2 ∧ st = 8
    | .err .sizeMismatch _ => False
    | .err .capacityExceeded _ => False
    | .err .deviceFault _ => False
    | .noFrame => False

/-- R165 against R151 to R161: from the start of an attempt, the stages, step by step, reach what
the functional form says, in everything but the registers dead between attempts (R35), within
nine steps. The number of steps rests on the model's step (log 3, DEDUCED). -/
def Obligations.StagesRunAsTheFunctionalForm : Prop :=
  ∀ s : State, s.cfg.wf = true → s.slots = [] → s.pollPhase = .attempt → s.frStage = .idle →
    s.rx ≠ [] → ∃ k t, k ≤ 9 ∧ runSteps k s = .next t ∧ eraseDead t = eraseDead (attemptOnce s)

/-- R278, R273: with nothing from outside, POLL ends within ten steps for each byte of rx and two
more, leaves rx empty, and is the function that folds `attempt` and DECODE over rx and applies
AGG. R273 counts passes of DRAIN; the number of steps rests on the model's step (log 3, DEDUCED),
and 'nothing from outside' is the empty list of slots (log 2, DESIGN CHOICE). -/
def Obligations.QuiescentPollIsAFunction : Prop :=
  ∀ s : State, s.cfg.wf = true → s.slots = [] → s.pollPhase = .idle → s.frStage = .idle →
    ∃ u k t, exec .poll s = .next u ∧ k ≤ 10 * s.rx.length + 2 ∧ runSteps k u = .next t ∧
      t.rx = [] ∧ t.pollPhase = .idle ∧ eraseDead t = eraseDead (pollQuiescent s)

/-- R341's side condition and source example E7: bytes that hold no 0xAA in front of a stream
cost one FrameSyncMiss(1) each, one byte each, and change no record and no flag. -/
def Obligations.GarbageIsScannedOff : Prop :=
  ∀ (g r : Bytes) (s : State), (∀ b ∈ g, b ≠ 0xAA#8) → s.rx = g ++ r →
    (drainAll g.length s).rx = r ∧
    (drainAll g.length s).events =
      s.events ++ List.replicate g.length (.attempt 1 (.err .frameSyncMiss 1)) ∧
    SameRecords s (drainAll g.length s) ∧ SameFlags s (drainAll g.length s) ∧
    (drainAll g.length s).fresh = s.fresh

/-! ## One step -/

/-- A step takes the next slot of the outside: a port access is decoded and executed; HOSTDRAIN
removes the first bytes of rx when no POLL is running (R281); with nothing from outside it is the
block's turn. The slots are the model's (log 2). -/
def Obligations.StepTakesTheNextSlot : Prop :=
  ∀ s : State, s.cfg.wf = true →
    (s.slots = [] → step s = blockTurn s) ∧
    (∀ l, s.slots = .quiet :: l → step s = blockTurn { s with slots := l }) ∧
    (∀ a l, s.slots = .port a :: l → step s = exec (decodePort a) { s with slots := l }) ∧
    (∀ n l, s.slots = .hostDrain n :: l → s.pollPhase = .idle →
      step s = .next { s with slots := l, rx := s.rx.drop n })

/-- R160, R190: when the Frame Reader has read the bytes of a frame that decodes to `i`, and
stands at S_CHK, the next step is `i`. -/
def Obligations.StepRunsTheFrameItHasRead : Prop :=
  ∀ (s : State) (w : Bytes) (i : Instr), s.cfg.wf = true → s.pollPhase = .attempt →
    s.frStage = .chk → decode s.cfg (.frame w) = .ok i → s.fbLen + 4 = w.length →
    Memory.readBytes s.fb 0 s.fbLen = some (w.take s.fbLen) →
    s.crcAcc = crc32 (w.take s.fbLen) → s.rxCrc = BitVec.ofNat 32 (leNat (w.drop s.fbLen)) →
    (s.slots = [] → step s = exec i s) ∧
    (∀ l, s.slots = .quiet :: l → step s = exec i { s with slots := l })

/-- R20, R333: no step changes the parameters. -/
def Obligations.StepKeepsTheParameters : Prop :=
  ∀ s t : State, step s = .next t → t.cfg = s.cfg

/-- R62, R72, R64, R276: every step leaves rx as it was but for bytes gone from its front and, on
a PUSH, one byte at its end; nothing the block does adds to it. -/
def Obligations.RxKeepsItsOrder : Prop :=
  ∀ s t : State, step s = .next t → ∃ n tail, t.rx = s.rx.drop n ++ tail ∧
    (tail = [] ∨ ∃ b l, s.slots = .port (.receiveWrite b) :: l ∧ n = 0 ∧ tail = [b])

/-- From R21, R191: each of the eight holders changes only by RESET or by the commit of an
accepted frame of its own kind with a matching checksum, which sets its fresh bit: the payload of
a fixed-size kind; of a count-prefixed kind the payload's count and its first `count` elements,
the later ones kept. -/
def Obligations.HolderHasOneWriter : Prop :=
  (∀ (s t : State) (k : FixedKind), step s = .next t → getFixed k t ≠ getFixed k s →
    (s.pollPhase = .idle ∧ ∃ l, s.slots = .port (.command 1#2) :: l) ∨
    (s.pollPhase = .attempt ∧ s.frStage = .chk ∧ s.crcAcc = s.rxCrc ∧
      ∃ body, fetchFrame s = some body ∧ frameId body = kindMsgId s.cfg (fixedToKind k) ∧
        (framePayload body).length = fixedSize s.cfg k ∧ getFixed k t = framePayload body ∧
        isFresh (fixedToKind k) t = true)) ∧
  (∀ (s t : State) (k : CountedKind), step s = .next t → getCounted k t ≠ getCounted k s →
    (s.pollPhase = .idle ∧ ∃ l, s.slots = .port (.command 1#2) :: l) ∨
    (s.pollPhase = .attempt ∧ s.frStage = .chk ∧ s.crcAcc = s.rxCrc ∧
      ∃ body n, fetchFrame s = some body ∧ frameId body = kindMsgId s.cfg (countedToKind k) ∧
        n = leAt (framePayload body) 0 4 ∧ n ≤ countedCap s.cfg k ∧
        (framePayload body).length = 4 + n * countedElem k ∧ (getCounted k t).count = n ∧
        (∀ i, i < n → (getCounted k t).elems[i]? =
          some (slice (framePayload body) (4 + countedElem k * i) (countedElem k))) ∧
        (∀ i, n ≤ i → (getCounted k t).elems[i]? = (getCounted k s).elems[i]?) ∧
        isFresh (countedToKind k) t = true))

/-! ## Status Aggregator (43_status_aggregator) -/

/-- From R244: AGG as one function. On a non-zero error word `valid`, `best_ok` and `hdg_ok` are
false, the reason is R_DEVICE_FAULT, and `jamming` and `spoofing` are derived only when
ABORT_SKIPS_FLAGS is false; otherwise all seven flags are derived. The event is emitted, and
nothing else changes. -/
def Obligations.AggregateIsOneFunction : Prop :=
  ∀ s : State,
    (errorWord s ≠ 0 → aggregate s = { s with
      valid := false, bestOk := false, hdgOk := false, reason := .deviceFault,
      jamming := if s.cfg.abortSkipsFlags = true then s.jamming else jammingSeen s,
      spoofing := if s.cfg.abortSkipsFlags = true then s.spoofing else spoofingSeen s,
      pollPhase := .idle, events := s.events ++ [.aggregate false .deviceFault] }) ∧
    (errorWord s = 0 → ∃ v r, aggregate s = { s with
        valid := v, bestOk := bestAccepted s, hdgOk := headingAccepted s, reason := r,
        jamming := jammingSeen s, spoofing := spoofingSeen s,
        pollPhase := .idle, events := s.events ++ [.aggregate v r] } ∧
      v = (!antFault s && !integFault s && bestAccepted s && headingAccepted s && typeAccepted s) ∧
      r = if antFault s = true then .antenna
          else if integFault s = true then .integrity
          else if (isFresh .bestPos s && headingFresh s) = false then .noFresh
          else if bestAccepted s = false then .bestNotComputed
          else if headingAccepted s = false then .hdgNotComputed
          else if typeAccepted s = false then .hdgType
          else .none)

/-- R234 to R238: `valid` after AGG, in the words of the records: error word 0, no masked antenna
bit and no masked integrity bit in any of the five status words, best position fresh and
computed, heading fresh and computed, and the heading's position type one of the three. -/
def Obligations.ValidIffEveryConditionHolds : Prop :=
  ∀ s : State, (aggregate s).valid = true ↔
    leAt s.rxStatus 0 4 = 0 ∧
    (BitVec.ofNat 32 (leAt s.rxStatus 8 4) &&& s.cfg.antMask.primary = 0#32 ∧
     BitVec.ofNat 32 (leAt s.rxStatus 24 4) &&& s.cfg.antMask.aux1 = 0#32 ∧
     BitVec.ofNat 32 (leAt s.rxStatus 40 4) &&& s.cfg.antMask.aux2 = 0#32 ∧
     BitVec.ofNat 32 (leAt s.rxStatus 56 4) &&& s.cfg.antMask.aux3 = 0#32 ∧
     BitVec.ofNat 32 (leAt s.rxStatus 72 4) &&& s.cfg.antMask.aux4 = 0#32) ∧
    (BitVec.ofNat 32 (leAt s.rxStatus 8 4) &&& s.cfg.integMask.primary = 0#32 ∧
     BitVec.ofNat 32 (leAt s.rxStatus 24 4) &&& s.cfg.integMask.aux1 = 0#32 ∧
     BitVec.ofNat 32 (leAt s.rxStatus 40 4) &&& s.cfg.integMask.aux2 = 0#32 ∧
     BitVec.ofNat 32 (leAt s.rxStatus 56 4) &&& s.cfg.integMask.aux3 = 0#32 ∧
     BitVec.ofNat 32 (leAt s.rxStatus 72 4) &&& s.cfg.integMask.aux4 = 0#32) ∧
    (s.fresh.getLsbD 5 = true ∧ leAt s.bestPos s.cfg.offSolStat s.cfg.wSolStat = s.cfg.solComputed) ∧
    (s.fresh.getLsbD 6 = true ∨ s.fresh.getLsbD 7 = true) ∧
    ∃ H, (H = if s.hdgLast = true then s.dualHeading else s.heading2) ∧
      leAt H s.cfg.offSolStat s.cfg.wSolStat = s.cfg.solComputed ∧
      (leAt H s.cfg.offPosType s.cfg.wPosType = s.cfg.ptMfFloat ∨
       leAt H s.cfg.offPosType s.cfg.wPosType = s.cfg.ptWideInt ∨
       leAt H s.cfg.offPosType s.cfg.wPosType = s.cfg.ptNarrowInt)

/-- From R241: the reason after a cycle without a device fault is the first that applies; and the
reason is R_NONE exactly when `valid` is true, which the spec derives. -/
def Obligations.ReasonIsTheFirstThatApplies : Prop :=
  (∀ s : State, errorWord s = 0 → (aggregate s).reason =
    if antFault s = true then .antenna
    else if integFault s = true then .integrity
    else if ¬(s.fresh.getLsbD 5 = true ∧ (s.fresh.getLsbD 6 = true ∨ s.fresh.getLsbD 7 = true))
      then .noFresh
    else if (aggregate s).bestOk = false then .bestNotComputed
    else if (aggregate s).hdgOk = false then .hdgNotComputed
    else if typeAccepted s = false then .hdgType
    else .none) ∧
  (∀ s : State, (aggregate s).reason = .none ↔ (aggregate s).valid = true)

/-- From R239 (whose bits of channels 1 to 3, 5 and 6 the spec derives) and R240: without a
device fault, `jamming` is bit 15 of the primary status word or one of bits 0, 1, 2, 4, 5, 6 of
the first auxiliary word; `spoofing` is bit 9 of the primary word; neither looks at `valid` or at
freshness. -/
def Obligations.JammingAndSpoofingBits : Prop :=
  ∀ s : State, errorWord s = 0 →
    ((aggregate s).jamming = true ↔
      (statusWord s 0).getLsbD 15 = true ∨ (statusWord s 1).getLsbD 0 = true ∨
      (statusWord s 1).getLsbD 1 = true ∨ (statusWord s 1).getLsbD 2 = true ∨
      (statusWord s 1).getLsbD 4 = true ∨ (statusWord s 1).getLsbD 5 = true ∨
      (statusWord s 1).getLsbD 6 = true) ∧
    ((aggregate s).spoofing = true ↔ (statusWord s 0).getLsbD 9 = true)

/-- From R242: `time_valid` is a function of the TIME holder alone; AGG does not change it, on a
device fault either; the TIME holder enters nothing that AGG derives; at P0 after reset it is
false. The last clause rests on the P0 values and on P0 as the instance of the reset state (log
1, PRESUMED, DESIGN CHOICE). -/
def Obligations.TimeValidFollowsTheTimeHolder : Prop :=
  ∀ s : State,
    (timeValid s = true ↔
      leAt s.time s.cfg.offClockStat s.cfg.wClockStat = s.cfg.clockValid ∧
      leAt s.time s.cfg.offUtcStat s.cfg.wUtcStat = s.cfg.utcValid) ∧
    timeValid (aggregate s) = timeValid s ∧ (snapshot s).timeValid = timeValid s ∧
    (∀ x : Bytes, aggregate { s with time := x } = { aggregate s with time := x }) ∧
    timeValid State.reset = false

/-- R47: the five names as predicates over the flags; and, which the spec derives from R238:
after AGG, NoData and PartialData exclude each other and the other three; FixValid implies
BestFixAvailable and HeadingFixAvailable; a device fault leaves neither fix available. -/
def Obligations.NamedStatesExcludeAndImply : Prop :=
  (∀ t : State,
    (noData t = true ↔ t.fresh = 0#8) ∧
    (partialData t = true ↔ t.fresh ≠ 0#8 ∧ t.bestOk = false ∧ t.hdgOk = false) ∧
    (bestFixAvailable t = true ↔ t.bestOk = true) ∧
    (headingFixAvailable t = true ↔ t.hdgOk = true) ∧
    (fixValid t = true ↔ t.valid = true)) ∧
  ∀ s t : State, t = aggregate s →
    ¬(noData t = true ∧ partialData t = true) ∧
    (noData t = true ∨ partialData t = true →
      bestFixAvailable t = false ∧ headingFixAvailable t = false ∧ fixValid t = false) ∧
    (fixValid t = true → bestFixAvailable t = true ∧ headingFixAvailable t = true) ∧
    (errorWord s ≠ 0 → bestFixAvailable t = false ∧ headingFixAvailable t = false)

/-- From R245 (d), which the spec derives from R244: a POLL with rx empty clears `fresh`,
`valid`, `best_ok` and `hdg_ok`, sets the reason by the stored receiver status, and leaves
`jamming`, `spoofing`, every holder and `hdg_last` unchanged. That it is issued as a slot (log 2,
DESIGN CHOICE) and takes three steps (log 3, DEDUCED) is the model's. The premise
FlagsFollowRecord is kept by every step (StepKeepsFlagMeaning). -/
def Obligations.EmptyPollChangesOnlyTheCycleFlags : Prop :=
  ∀ s : State, s.cfg.wf = true → s.slots = [.port (.command 2#2)] → s.pollPhase = .idle →
    s.rx = [] → FlagsFollowRecord s →
    ∃ t, runSteps 3 s = .next t ∧ SameRecords s t ∧ t.jamming = s.jamming ∧
      t.spoofing = s.spoofing ∧ t.fresh = 0#8 ∧ t.valid = false ∧ t.bestOk = false ∧
      t.hdgOk = false ∧ t.rx = [] ∧ t.pollPhase = .idle ∧
      t.reason = (if errorWord s ≠ 0 then .deviceFault else if antFault s = true then .antenna
        else if integFault s = true then .integrity else .noFresh)

/-! ## Invariants of every step -/

/-- From R66, R32: every step keeps the frame buffer's canonical form inside its 65563 bytes. -/
def Obligations.StepKeepsFrameBufferForm : Prop :=
  ∀ s t : State, Memory.wf s.fb = true → step s = .next t → Memory.wf t.fb = true

/-- From R22, R23, R24, R296: every step keeps every holder's shape: a fixed-size holder has its
size, a store's count is at most its capacity, and no element is ever written past the store. -/
def Obligations.StepKeepsHolderShapes : Prop :=
  ∀ s t : State, HoldersOk s → step s = .next t → HoldersOk t

/-- From R30 to R35, R67, R134, R161, R162: every step keeps what the Frame Reader's registers
hold at each stage. -/
def Obligations.StepKeepsReaderRegisters : Prop :=
  ∀ s t : State, ReaderOk s → step s = .next t → ReaderOk t

/-- From R41, R245 (e): every step keeps the meaning of `valid`. -/
def Obligations.StepKeepsValidMeaning : Prop :=
  ∀ s t : State, ValidOk s → step s = .next t → ValidOk t

/-- From R239, R240, R352, R25, R237: every step keeps what `jamming`, `spoofing` and `hdg_last`
follow. -/
def Obligations.StepKeepsFlagMeaning : Prop :=
  ∀ s t : State, FlagsFollowRecord s → HeadingLastOk s → step s = .next t →
    FlagsFollowRecord t ∧ HeadingLastOk t

/-- The state after reset meets every invariant, and its parameter set is well formed. -/
def Obligations.ResetMeetsTheInvariants : Prop :=
  State.reset.cfg.wf = true ∧ Memory.wf State.reset.fb = true ∧ HoldersOk State.reset ∧
  ReaderOk State.reset ∧ ValidOk State.reset ∧ FlagsFollowRecord State.reset ∧
  HeadingLastOk State.reset

/-- 93 part 1 ("No point of the block is treated as fault"), R300: no step faults where the Frame
Reader's registers are as its stages leave them. The faults it excludes are the model's (log 6,
DESIGN CHOICE). -/
def Obligations.NoStepFaults : Prop :=
  ∀ (s : State) (f : Fault), ReaderOk s → step s ≠ .fault f
end

