-- ==== Sys2Proof/Laws/Aggregator.lean ====
section
/-!
SUPPORT. What AGG does to each field: what it leaves unchanged, where it leaves POLL, and the
value of each flag it writes, with and without a device fault.
-/
namespace Sys2Proof.Machine
variable (s : State)

/-- A field that no step of the aggregation writes is the same after the derivation. -/
theorem aggDerive_keeps {α : Type} (f : State → α) (h1 : ∀ s, f (aggReset s) = f s)
    (h2 : ∀ s, f (aggFault s) = f s) (h3 : ∀ s, f (aggBest s) = f s)
    (h4 : ∀ s, f (aggHeading s) = f s) (h5 : ∀ s, f (aggValid s) = f s)
    (h6 : ∀ s, f (aggReason s) = f s) (h7 : ∀ s, f (aggJamming s) = f s)
    (h8 : ∀ s, f (aggSpoofing s) = f s) : f (aggDerive s) = f s := by
  unfold aggDerive
  dsimp only
  split
  · split
    · rw [h2, h1]
    · rw [h8, h7, h2, h1]
  · rw [h8, h7, h6, h5, h4, h3, h1]

@[simp] theorem aggregate_pollPhase : (aggregate s).pollPhase = .idle := rfl

@[simp] theorem aggregate_cfg : (aggregate s).cfg = s.cfg := by
  refine Eq.trans ?_ (aggDerive_keeps s (·.cfg) ?_ ?_ ?_ ?_ ?_ ?_ ?_ ?_)
  · unfold aggregate emit; rfl
  all_goals intro _; rfl
@[simp] theorem aggregate_slots : (aggregate s).slots = s.slots := by
  refine Eq.trans ?_ (aggDerive_keeps s (·.slots) ?_ ?_ ?_ ?_ ?_ ?_ ?_ ?_)
  · unfold aggregate emit; rfl
  all_goals intro _; rfl
@[simp] theorem aggregate_rx : (aggregate s).rx = s.rx := by
  refine Eq.trans ?_ (aggDerive_keeps s (·.rx) ?_ ?_ ?_ ?_ ?_ ?_ ?_ ?_)
  · unfold aggregate emit; rfl
  all_goals intro _; rfl
@[simp] theorem aggregate_version : (aggregate s).version = s.version := by
  refine Eq.trans ?_ (aggDerive_keeps s (·.version) ?_ ?_ ?_ ?_ ?_ ?_ ?_ ?_)
  · unfold aggregate emit; rfl
  all_goals intro _; rfl
@[simp] theorem aggregate_hwMonitor : (aggregate s).hwMonitor = s.hwMonitor := by
  refine Eq.trans ?_ (aggDerive_keeps s (·.hwMonitor) ?_ ?_ ?_ ?_ ?_ ?_ ?_ ?_)
  · unfold aggregate emit; rfl
  all_goals intro _; rfl
@[simp] theorem aggregate_rxStatus : (aggregate s).rxStatus = s.rxStatus := by
  refine Eq.trans ?_ (aggDerive_keeps s (·.rxStatus) ?_ ?_ ?_ ?_ ?_ ?_ ?_ ?_)
  · unfold aggregate emit; rfl
  all_goals intro _; rfl
@[simp] theorem aggregate_rxStatusEvent : (aggregate s).rxStatusEvent = s.rxStatusEvent := by
  refine Eq.trans ?_ (aggDerive_keeps s (·.rxStatusEvent) ?_ ?_ ?_ ?_ ?_ ?_ ?_ ?_)
  · unfold aggregate emit; rfl
  all_goals intro _; rfl
@[simp] theorem aggregate_time : (aggregate s).time = s.time := by
  refine Eq.trans ?_ (aggDerive_keeps s (·.time) ?_ ?_ ?_ ?_ ?_ ?_ ?_ ?_)
  · unfold aggregate emit; rfl
  all_goals intro _; rfl
@[simp] theorem aggregate_bestPos : (aggregate s).bestPos = s.bestPos := by
  refine Eq.trans ?_ (aggDerive_keeps s (·.bestPos) ?_ ?_ ?_ ?_ ?_ ?_ ?_ ?_)
  · unfold aggregate emit; rfl
  all_goals intro _; rfl
@[simp] theorem aggregate_heading2 : (aggregate s).heading2 = s.heading2 := by
  refine Eq.trans ?_ (aggDerive_keeps s (·.heading2) ?_ ?_ ?_ ?_ ?_ ?_ ?_ ?_)
  · unfold aggregate emit; rfl
  all_goals intro _; rfl
@[simp] theorem aggregate_dualHeading : (aggregate s).dualHeading = s.dualHeading := by
  refine Eq.trans ?_ (aggDerive_keeps s (·.dualHeading) ?_ ?_ ?_ ?_ ?_ ?_ ?_ ?_)
  · unfold aggregate emit; rfl
  all_goals intro _; rfl
@[simp] theorem aggregate_hdgLast : (aggregate s).hdgLast = s.hdgLast := by
  refine Eq.trans ?_ (aggDerive_keeps s (·.hdgLast) ?_ ?_ ?_ ?_ ?_ ?_ ?_ ?_)
  · unfold aggregate emit; rfl
  all_goals intro _; rfl
@[simp] theorem aggregate_frStage : (aggregate s).frStage = s.frStage := by
  refine Eq.trans ?_ (aggDerive_keeps s (·.frStage) ?_ ?_ ?_ ?_ ?_ ?_ ?_ ?_)
  · unfold aggregate emit; rfl
  all_goals intro _; rfl
@[simp] theorem aggregate_crcAcc : (aggregate s).crcAcc = s.crcAcc := by
  refine Eq.trans ?_ (aggDerive_keeps s (·.crcAcc) ?_ ?_ ?_ ?_ ?_ ?_ ?_ ?_)
  · unfold aggregate emit; rfl
  all_goals intro _; rfl
@[simp] theorem aggregate_fb : (aggregate s).fb = s.fb := by
  refine Eq.trans ?_ (aggDerive_keeps s (·.fb) ?_ ?_ ?_ ?_ ?_ ?_ ?_ ?_)
  · unfold aggregate emit; rfl
  all_goals intro _; rfl
@[simp] theorem aggregate_fbLen : (aggregate s).fbLen = s.fbLen := by
  refine Eq.trans ?_ (aggDerive_keeps s (·.fbLen) ?_ ?_ ?_ ?_ ?_ ?_ ?_ ?_)
  · unfold aggregate emit; rfl
  all_goals intro _; rfl
@[simp] theorem aggregate_rxCrc : (aggregate s).rxCrc = s.rxCrc := by
  refine Eq.trans ?_ (aggDerive_keeps s (·.rxCrc) ?_ ?_ ?_ ?_ ?_ ?_ ?_ ?_)
  · unfold aggregate emit; rfl
  all_goals intro _; rfl
@[simp] theorem aggregate_consumed : (aggregate s).consumed = s.consumed := by
  refine Eq.trans ?_ (aggDerive_keeps s (·.consumed) ?_ ?_ ?_ ?_ ?_ ?_ ?_ ?_)
  · unfold aggregate emit; rfl
  all_goals intro _; rfl
@[simp] theorem aggregate_fresh : (aggregate s).fresh = s.fresh := by
  refine Eq.trans ?_ (aggDerive_keeps s (·.fresh) ?_ ?_ ?_ ?_ ?_ ?_ ?_ ?_)
  · unfold aggregate emit; rfl
  all_goals intro _; rfl
@[simp] theorem aggregate_snapOut : (aggregate s).snapOut = s.snapOut := by
  refine Eq.trans ?_ (aggDerive_keeps s (·.snapOut) ?_ ?_ ?_ ?_ ?_ ?_ ?_ ?_)
  · unfold aggregate emit; rfl
  all_goals intro _; rfl

@[simp] theorem aggregate_getFixed (k : FixedKind) : getFixed k (aggregate s) = getFixed k s := by
  cases k <;> simp [getFixed]

/-! What the derivation reads is the same after it. -/
@[simp] theorem aggregate_errorWord : errorWord (aggregate s) = errorWord s := by simp [errorWord]
@[simp] theorem aggregate_statusWord (g : Nat) : statusWord (aggregate s) g = statusWord s g := by
  simp [statusWord]
@[simp] theorem aggregate_statusWords : statusWords (aggregate s) = statusWords s := by
  simp [statusWords]
@[simp] theorem aggregate_antFault : antFault (aggregate s) = antFault s := by simp [antFault]
@[simp] theorem aggregate_integFault : integFault (aggregate s) = integFault s := by
  simp [integFault]
@[simp] theorem aggregate_isFresh (k : Kind) : isFresh k (aggregate s) = isFresh k s := by
  simp [isFresh]
@[simp] theorem aggregate_bestAccepted : bestAccepted (aggregate s) = bestAccepted s := by
  simp [bestAccepted]
@[simp] theorem aggregate_headingRecord : headingRecord (aggregate s) = headingRecord s := by
  simp [headingRecord]
@[simp] theorem aggregate_headingAccepted : headingAccepted (aggregate s) = headingAccepted s := by
  simp [headingAccepted, headingFresh]
@[simp] theorem aggregate_typeAccepted : typeAccepted (aggregate s) = typeAccepted s := by
  simp [typeAccepted]
@[simp] theorem aggregate_jammingSeen : jammingSeen (aggregate s) = jammingSeen s := by
  simp [jammingSeen]
@[simp] theorem aggregate_spoofingSeen : spoofingSeen (aggregate s) = spoofingSeen s := by
  simp [spoofingSeen]

/-! What each derived value depends on. -/
theorem statusWord_congr {s t : State} (h : t.rxStatus = s.rxStatus) (g : Nat) :
    statusWord t g = statusWord s g := by simp only [statusWord, h]
theorem statusWords_congr {s t : State} (h : t.rxStatus = s.rxStatus) :
    statusWords t = statusWords s := by simp only [statusWords, statusWord_congr h]
theorem errorWord_congr {s t : State} (h : t.rxStatus = s.rxStatus) :
    errorWord t = errorWord s := by simp only [errorWord, h]
theorem antFault_congr {s t : State} (hc : t.cfg = s.cfg) (h : t.rxStatus = s.rxStatus) :
    antFault t = antFault s := by simp only [antFault, statusWords_congr h, hc]
theorem integFault_congr {s t : State} (hc : t.cfg = s.cfg) (h : t.rxStatus = s.rxStatus) :
    integFault t = integFault s := by simp only [integFault, statusWords_congr h, hc]
theorem jammingSeen_congr {s t : State} (h : t.rxStatus = s.rxStatus) :
    jammingSeen t = jammingSeen s := by simp only [jammingSeen, statusWord_congr h]
theorem spoofingSeen_congr {s t : State} (h : t.rxStatus = s.rxStatus) :
    spoofingSeen t = spoofingSeen s := by simp only [spoofingSeen, statusWord_congr h]
theorem bestAccepted_congr {s t : State} (hc : t.cfg = s.cfg) (hf : t.fresh = s.fresh)
    (h : t.bestPos = s.bestPos) : bestAccepted t = bestAccepted s := by
  simp only [bestAccepted, isFresh, hc, hf, h]
theorem headingRecord_congr {s t : State} (hl : t.hdgLast = s.hdgLast)
    (h2 : t.heading2 = s.heading2) (hd : t.dualHeading = s.dualHeading) :
    headingRecord t = headingRecord s := by simp only [headingRecord, hl, h2, hd]
theorem headingFresh_congr {s t : State} (hf : t.fresh = s.fresh) :
    headingFresh t = headingFresh s := by simp only [headingFresh, isFresh, hf]
theorem headingAccepted_congr {s t : State} (hc : t.cfg = s.cfg) (hf : t.fresh = s.fresh)
    (hr : headingRecord t = headingRecord s) : headingAccepted t = headingAccepted s := by
  simp only [headingAccepted, headingFresh_congr hf, hr, hc]
theorem typeAccepted_congr {s t : State} (hc : t.cfg = s.cfg)
    (hr : headingRecord t = headingRecord s) : typeAccepted t = typeAccepted s := by
  simp only [typeAccepted, hr, hc]

theorem errorWord_aggReset : errorWord (aggReset s) = errorWord s := errorWord_congr rfl

/-- AGG.8 and AGG.9 at the end of the derivation, after any state. -/
theorem aggSpoofing_jamming : (aggSpoofing (aggJamming s)).jamming = jammingSeen s := rfl
theorem aggSpoofing_spoofing : (aggSpoofing (aggJamming s)).spoofing = spoofingSeen s :=
  spoofingSeen_congr (t := aggJamming s) rfl

/-- Steps 1 to 7 and the reason do not write the receiver-status holder. -/
theorem aggReason_rxStatus :
    (aggReason (aggValid (aggHeading (aggBest (aggReset s))))).rxStatus = s.rxStatus := by
  have h1 : ∀ t, (aggReason t).rxStatus = t.rxStatus := fun _ => rfl
  have h2 : ∀ t, (aggValid t).rxStatus = t.rxStatus := fun _ => rfl
  have h3 : ∀ t, (aggHeading t).rxStatus = t.rxStatus := fun _ => rfl
  have h4 : ∀ t, (aggBest t).rxStatus = t.rxStatus := fun _ => rfl
  rw [h1, h2, h3, h4]; rfl

/-- The derivation without a device fault: steps 3 to 9 in order (R233). -/
theorem aggDerive_noFault (h : errorWord s = 0) :
    aggDerive s =
      aggSpoofing (aggJamming (aggReason (aggValid (aggHeading (aggBest (aggReset s)))))) := by
  unfold aggDerive
  exact if_neg (by unfold deviceFault; rw [errorWord_aggReset]; simpa using h)

/-- The derivation on a device fault (R233). -/
theorem aggDerive_fault (h : errorWord s ≠ 0) :
    aggDerive s = if s.cfg.abortSkipsFlags then aggFault (aggReset s)
      else aggSpoofing (aggJamming (aggFault (aggReset s))) := by
  unfold aggDerive
  exact if_pos (by unfold deviceFault; rw [errorWord_aggReset]; simpa using h)

/-- The flags the derivation writes are those of the whole operation. -/
theorem aggregate_flags :
    (aggregate s).valid = (aggDerive s).valid ∧ (aggregate s).bestOk = (aggDerive s).bestOk ∧
    (aggregate s).hdgOk = (aggDerive s).hdgOk ∧ (aggregate s).reason = (aggDerive s).reason ∧
    (aggregate s).jamming = (aggDerive s).jamming ∧
    (aggregate s).spoofing = (aggDerive s).spoofing := ⟨rfl, rfl, rfl, rfl, rfl, rfl⟩

theorem aggregate_bestOk_noFault (h : errorWord s = 0) :
    (aggregate s).bestOk = bestAccepted s := by
  rw [(aggregate_flags s).2.1, aggDerive_noFault s h]; rfl

theorem aggregate_hdgOk_noFault (h : errorWord s = 0) :
    (aggregate s).hdgOk = headingAccepted s := by
  rw [(aggregate_flags s).2.2.1, aggDerive_noFault s h]; rfl

theorem aggregate_valid_noFault (h : errorWord s = 0) :
    (aggregate s).valid = (!antFault s && !integFault s && bestAccepted s && headingAccepted s &&
      typeAccepted s) := by
  rw [(aggregate_flags s).1, aggDerive_noFault s h]; rfl

/-- R241 over the state before the cycle. -/
theorem aggregate_reason_noFault (h : errorWord s = 0) :
    (aggregate s).reason =
      if antFault s then .antenna else if integFault s then .integrity
      else if !(isFresh .bestPos s && headingFresh s) then .noFresh
      else if !bestAccepted s then .bestNotComputed
      else if !headingAccepted s then .hdgNotComputed
      else if !typeAccepted s then .hdgType else .none := by
  rw [(aggregate_flags s).2.2.2.1, aggDerive_noFault s h]
  generalize ht : aggValid (aggHeading (aggBest (aggReset s))) = t
  have h1 : antFault t = antFault s := antFault_congr (by subst ht; rfl) (by subst ht; rfl)
  have h2 : integFault t = integFault s := integFault_congr (by subst ht; rfl) (by subst ht; rfl)
  have h3 : isFresh .bestPos t = isFresh .bestPos s := by subst ht; rfl
  have h4 : headingFresh t = headingFresh s := headingFresh_congr (by subst ht; rfl)
  have h5 : t.bestOk = bestAccepted s := by subst ht; rfl
  have h6 : t.hdgOk = headingAccepted s := by subst ht; rfl
  have h7 : typeAccepted t = typeAccepted s :=
    typeAccepted_congr (by subst ht; rfl) (by subst ht; rfl)
  show reasonOf t = _
  simp only [reasonOf, h1, h2, h3, h4, h5, h6, h7]

theorem aggregate_valid_fault (h : errorWord s ≠ 0) : (aggregate s).valid = false := by
  rw [(aggregate_flags s).1, aggDerive_fault s h]; split <;> rfl

theorem aggregate_bestOk_fault (h : errorWord s ≠ 0) : (aggregate s).bestOk = false := by
  rw [(aggregate_flags s).2.1, aggDerive_fault s h]; split <;> rfl

theorem aggregate_hdgOk_fault (h : errorWord s ≠ 0) : (aggregate s).hdgOk = false := by
  rw [(aggregate_flags s).2.2.1, aggDerive_fault s h]; split <;> rfl

theorem aggregate_reason_fault (h : errorWord s ≠ 0) : (aggregate s).reason = .deviceFault := by
  rw [(aggregate_flags s).2.2.2.1, aggDerive_fault s h]; split <;> rfl

/-- R239, R233: `jamming` is derived unless a device fault holds it. -/
theorem aggregate_jamming : (aggregate s).jamming =
    if errorWord s ≠ 0 ∧ s.cfg.abortSkipsFlags = true then s.jamming else jammingSeen s := by
  rw [(aggregate_flags s).2.2.2.2.1]
  by_cases h : errorWord s = 0
  · rw [aggDerive_noFault s h, if_neg (fun h' => h'.1 h)]
    exact (aggSpoofing_jamming _).trans (jammingSeen_congr (aggReason_rxStatus s))
  · rw [aggDerive_fault s h]
    by_cases ha : s.cfg.abortSkipsFlags = true
    · rw [if_pos ha, if_pos ⟨h, ha⟩]; rfl
    · rw [if_neg ha, if_neg (fun h' => ha h'.2)]
      exact (aggSpoofing_jamming _).trans (jammingSeen_congr (s := s) (t := aggFault (aggReset s)) rfl)

/-- R240, R233: `spoofing` is derived unless a device fault holds it. -/
theorem aggregate_spoofing : (aggregate s).spoofing =
    if errorWord s ≠ 0 ∧ s.cfg.abortSkipsFlags = true then s.spoofing else spoofingSeen s := by
  rw [(aggregate_flags s).2.2.2.2.2]
  by_cases h : errorWord s = 0
  · rw [aggDerive_noFault s h, if_neg (fun h' => h'.1 h)]
    exact (aggSpoofing_spoofing _).trans (spoofingSeen_congr (aggReason_rxStatus s))
  · rw [aggDerive_fault s h]
    by_cases ha : s.cfg.abortSkipsFlags = true
    · rw [if_pos ha, if_pos ⟨h, ha⟩]; rfl
    · rw [if_neg ha, if_neg (fun h' => ha h'.2)]
      exact (aggSpoofing_spoofing _).trans (spoofingSeen_congr (s := s) (t := aggFault (aggReset s)) rfl)

end Sys2Proof.Machine
end

