-- ==== Sys2Proof/Laws/Bytes.lean ====
section
/-!
SUPPORT. Laws of the byte-order helpers and of the checksum fold.
-/
namespace Sys2Proof.Machine

@[simp] theorem leBytes_length (n v : Nat) : (leBytes n v).length = n := by
  induction n generalizing v with
  | zero => rfl
  | succ n ih => simp [leBytes, ih]

theorem leNat_lt (s : Bytes) : leNat s < 256 ^ s.length := by
  induction s with
  | nil => simp [leNat]
  | cons b t ih =>
    have hb := b.isLt
    simp only [leNat, List.length_cons, Nat.pow_succ]
    omega

theorem leNat_leBytes (n v : Nat) : leNat (leBytes n v) = v % 256 ^ n := by
  induction n generalizing v with
  | zero => simp [leBytes, leNat, Nat.mod_one]
  | succ n ih =>
    rw [Nat.pow_succ', Nat.mod_mul]
    simp only [leBytes, leNat, ih, BitVec.toNat_ofNat]

theorem leNat_append (a b : Bytes) : leNat (a ++ b) = leNat a + 256 ^ a.length * leNat b := by
  induction a with
  | nil => simp [leNat]
  | cons x t ih =>
    simp only [List.cons_append, leNat, ih, List.length_cons, Nat.pow_succ]
    ring

theorem leBytes_leNat (s : Bytes) : leBytes s.length (leNat s) = s := by
  induction s with
  | nil => rfl
  | cons b t ih =>
    have hb := b.isLt
    simp only [List.length_cons, leBytes, leNat]
    congr 1
    · apply BitVec.eq_of_toNat_eq
      rw [BitVec.toNat_ofNat]
      omega
    · rw [show (b.toNat + 256 * leNat t) / 256 = leNat t by omega, ih]

theorem slice_length_le (s : Bytes) (off n : Nat) : (slice s off n).length ≤ n := by
  simp only [slice, List.length_take]; omega

theorem slice_length (s : Bytes) (off n : Nat) (h : off + n ≤ s.length) :
    (slice s off n).length = n := by
  simp only [slice, List.length_take, List.length_drop]; omega

theorem leAt_lt (s : Bytes) (off n : Nat) : leAt s off n < 256 ^ n :=
  Nat.lt_of_lt_of_le (leNat_lt _) (Nat.pow_le_pow_right (by omega) (slice_length_le s off n))

/-- A slice that lies inside the first part of a string does not see the second. -/
theorem slice_append_left (a b : Bytes) (off n : Nat) (h : off + n ≤ a.length) :
    slice (a ++ b) off n = slice a off n := by
  simp only [slice]
  rw [List.drop_append_of_le_length (by omega), List.take_append_of_le_length (by simp; omega)]

theorem leAt_append_left (a b : Bytes) (off n : Nat) (h : off + n ≤ a.length) :
    leAt (a ++ b) off n = leAt a off n := by
  simp only [leAt, slice_append_left a b off n h]

/-- R137 (e), for the fold. -/
theorem crcFold_append (c : U32) (a b : Bytes) :
    crcFold c (a ++ b) = crcFold (crcFold c a) b := by simp [crcFold]

@[simp] theorem crcFold_nil (c : U32) : crcFold c [] = c := rfl

theorem crcFold_cons (c : U32) (b : Byte) (t : Bytes) :
    crcFold c (b :: t) = crcFold (crcStep c b) t := rfl

theorem streamBit_beyond (s : Bytes) (j : Nat) (h : 8 * s.length ≤ j) : streamBit s j = false := by
  have h' : s.length ≤ j / 8 := by omega
  simp [streamBit, List.getD, h']

/-- Bit `r` of byte `i` is bit `8 * i + r` of the string. -/
theorem streamBit_byte (s : Bytes) (i r : Nat) (hr : r < 8) :
    streamBit s (8 * i + r) = (s.getD i 0#8).getLsbD r := by
  rw [streamBit, show (8 * i + r) / 8 = i by omega, show (8 * i + r) % 8 = r by omega]

@[simp] theorem crc32_nil : crc32 [] = 0#32 := rfl

end Sys2Proof.Machine
end

