-- ==== Sys2Proof/Laws/Memory.lean ====
section
/-!
SUPPORT. Laws of the frame buffer: a read after a write, and that every operation keeps the
canonical form.
-/
namespace Sys2Proof.Machine

@[simp] theorem Memory.read_nil (a : Nat) : Memory.read [] a = none := rfl

theorem Memory.read_write_same (m : Memory) (a : Nat) (b : Byte) :
    Memory.read (Memory.write m a b) a = some b := by
  induction m with
  | nil => simp [Memory.write, Memory.read]
  | cons c t ih =>
    obtain ⟨k, v⟩ := c
    simp only [Memory.write]
    split
    · simp [Memory.read]
    · split
      · simp [Memory.read]
      · next h => simp only [Memory.read, if_neg h, ih]

theorem Memory.read_write_other (m : Memory) (a a' : Nat) (b : Byte) (h : a' ≠ a) :
    Memory.read (Memory.write m a b) a' = Memory.read m a' := by
  induction m with
  | nil => simp [Memory.write, Memory.read, h]
  | cons c t ih =>
    obtain ⟨k, v⟩ := c
    simp only [Memory.write]
    split
    · simp [Memory.read, h]
    · split
      · next hk => subst hk; simp [Memory.read, h]
      · simp only [Memory.read, ih]

theorem Memory.read_writeBytes_below (m : Memory) (a a' : Nat) (v : Bytes) (h : a' < a) :
    Memory.read (Memory.writeBytes m a v) a' = Memory.read m a' := by
  induction v generalizing m a with
  | nil => rfl
  | cons b t ih =>
    rw [Memory.writeBytes, ih _ _ (by omega), Memory.read_write_other _ _ _ _ (by omega)]

theorem Memory.read_writeBytes_above (m : Memory) (a a' : Nat) (v : Bytes)
    (h : a + v.length ≤ a') : Memory.read (Memory.writeBytes m a v) a' = Memory.read m a' := by
  induction v generalizing m a with
  | nil => rfl
  | cons b t ih =>
    simp only [List.length_cons] at h
    rw [Memory.writeBytes, ih _ _ (by omega), Memory.read_write_other _ _ _ _ (by omega)]

/-- A range that the write does not touch reads as before. -/
theorem Memory.readBytes_writeBytes_below (m : Memory) (a : Nat) (v : Bytes) (lo n : Nat)
    (h : lo + n ≤ a) : Memory.readBytes (Memory.writeBytes m a v) lo n = Memory.readBytes m lo n := by
  induction n generalizing lo with
  | zero => rfl
  | succ n ih =>
    simp only [Memory.readBytes]
    rw [Memory.read_writeBytes_below _ _ _ _ (by omega), ih _ (by omega)]

/-- The range written reads as the bytes written. -/
theorem Memory.readBytes_writeBytes_same (m : Memory) (a : Nat) (v : Bytes) :
    Memory.readBytes (Memory.writeBytes m a v) a v.length = some v := by
  induction v generalizing m a with
  | nil => rfl
  | cons b t ih =>
    simp only [List.length_cons, Memory.readBytes, Memory.writeBytes]
    rw [Memory.read_writeBytes_below _ _ _ _ (by omega), Memory.read_write_same, ih]

/-- Two adjacent ranges read as one. -/
theorem Memory.readBytes_append (m : Memory) (a n k : Nat) (x y : Bytes)
    (hx : Memory.readBytes m a n = some x) (hy : Memory.readBytes m (a + n) k = some y) :
    Memory.readBytes m a (n + k) = some (x ++ y) := by
  induction n generalizing a x with
  | zero =>
    simp only [Memory.readBytes, Option.some.injEq] at hx
    subst hx
    simpa using hy
  | succ n ih =>
    simp only [Memory.readBytes] at hx
    split at hx
    · next b t hb ht =>
      obtain rfl := Option.some.inj hx
      have := ih (a + 1) t ht (by rw [← hy]; congr 1; omega)
      rw [show n + 1 + k = (n + k) + 1 by omega, Memory.readBytes, hb, this]
      rfl
    · exact absurd hx (by simp)

theorem Memory.readBytes_length (m : Memory) (a n : Nat) (x : Bytes)
    (h : Memory.readBytes m a n = some x) : x.length = n := by
  induction n generalizing a x with
  | zero => simp only [Memory.readBytes, Option.some.injEq] at h; simp [← h]
  | succ n ih =>
    simp only [Memory.readBytes] at h
    split at h
    · next b t hb ht =>
      obtain rfl := Option.some.inj h
      simp [ih _ _ ht]
    · exact absurd h (by simp)

/-- A range inside a range that reads as `x` reads as the matching slice of `x`. -/
theorem Memory.readBytes_slice (m : Memory) (a n off k : Nat) (x : Bytes)
    (h : Memory.readBytes m a n = some x) (hk : off + k ≤ n) :
    Memory.readBytes m (a + off) k = some (slice x off k) := by
  induction n generalizing a off x k with
  | zero =>
    obtain rfl : off = 0 := by omega
    obtain rfl : k = 0 := by omega
    simp [Memory.readBytes, slice]
  | succ n ih =>
    simp only [Memory.readBytes] at h
    split at h
    · next b t hb ht =>
      obtain rfl := Option.some.inj h
      cases off with
      | zero =>
        cases k with
        | zero => simp [Memory.readBytes, slice]
        | succ k =>
          have := ih (a + 1) 0 k t ht (by omega)
          simp only [Nat.add_zero] at this ⊢
          simp only [Memory.readBytes, hb, this]
          simp [slice]
      | succ off =>
        have := ih (a + 1) off k t ht (by omega)
        rw [show a + (off + 1) = a + 1 + off by omega, this]
        simp [slice]
    · exact absurd h (by simp)

theorem Memory.risesWithin_mono (m : Memory) (lo lo' hi : Nat) (h : lo' ≤ lo)
    (hm : Memory.risesWithin m lo hi = true) : Memory.risesWithin m lo' hi = true := by
  cases m with
  | nil => rfl
  | cons c t =>
    obtain ⟨k, v⟩ := c
    simp only [Memory.risesWithin, Bool.and_eq_true, decide_eq_true_eq] at hm ⊢
    exact ⟨⟨by omega, hm.1.2⟩, hm.2⟩

theorem Memory.risesWithin_write (m : Memory) (lo hi a : Nat) (b : Byte)
    (hlo : lo ≤ a) (hhi : a < hi) (hm : Memory.risesWithin m lo hi = true) :
    Memory.risesWithin (Memory.write m a b) lo hi = true := by
  induction m generalizing lo with
  | nil => simp [Memory.write, Memory.risesWithin, hlo, hhi]
  | cons c t ih =>
    obtain ⟨k, v⟩ := c
    simp only [Memory.risesWithin, Bool.and_eq_true, decide_eq_true_eq] at hm
    simp only [Memory.write]
    split
    · simp only [Memory.risesWithin, Bool.and_eq_true, decide_eq_true_eq]
      exact ⟨⟨hlo, hhi⟩, ⟨by omega, hm.1.2⟩, hm.2⟩
    · split
      · next h =>
        subst h
        simp only [Memory.risesWithin, Bool.and_eq_true, decide_eq_true_eq]
        exact hm
      · simp only [Memory.risesWithin, Bool.and_eq_true, decide_eq_true_eq]
        exact ⟨hm.1, ih (k + 1) (by omega) hm.2⟩

/-- A write inside fb keeps the canonical form. -/
theorem Memory.write_wf (m : Memory) (a : Nat) (b : Byte) (ha : a < fbCapacity)
    (h : Memory.wf m = true) : Memory.wf (Memory.write m a b) = true :=
  Memory.risesWithin_write m 0 fbCapacity a b (Nat.zero_le a) ha h

/-- A write of a byte string inside fb keeps the canonical form. -/
theorem Memory.writeBytes_wf (m : Memory) (a : Nat) (v : Bytes) (ha : a + v.length ≤ fbCapacity)
    (h : Memory.wf m = true) : Memory.wf (Memory.writeBytes m a v) = true := by
  induction v generalizing m a with
  | nil => exact h
  | cons b t ih =>
    simp only [List.length_cons] at ha
    exact ih _ _ (by omega) (Memory.write_wf m a b (by omega) h)

end Sys2Proof.Machine
end

