-- ==== Sys2Proof/Laws/State.lean ====
section
/-!
SUPPORT. One lemma per field per update of the state: what each named operation does to each
field of State, so that no later proof unfolds a record update.
-/
namespace Sys2Proof.Machine
variable (s : State)


/-! rxPop -/
@[simp] theorem rxPop_cfg (n : Nat) : (rxPop n s).cfg = s.cfg := rfl
@[simp] theorem rxPop_slots (n : Nat) : (rxPop n s).slots = s.slots := rfl
@[simp] theorem rxPop_rx (n : Nat) : (rxPop n s).rx = s.rx.drop n := rfl
@[simp] theorem rxPop_version (n : Nat) : (rxPop n s).version = s.version := rfl
@[simp] theorem rxPop_hwMonitor (n : Nat) : (rxPop n s).hwMonitor = s.hwMonitor := rfl
@[simp] theorem rxPop_rxStatus (n : Nat) : (rxPop n s).rxStatus = s.rxStatus := rfl
@[simp] theorem rxPop_rxStatusEvent (n : Nat) : (rxPop n s).rxStatusEvent = s.rxStatusEvent := rfl
@[simp] theorem rxPop_time (n : Nat) : (rxPop n s).time = s.time := rfl
@[simp] theorem rxPop_bestPos (n : Nat) : (rxPop n s).bestPos = s.bestPos := rfl
@[simp] theorem rxPop_heading2 (n : Nat) : (rxPop n s).heading2 = s.heading2 := rfl
@[simp] theorem rxPop_dualHeading (n : Nat) : (rxPop n s).dualHeading = s.dualHeading := rfl
@[simp] theorem rxPop_hdgLast (n : Nat) : (rxPop n s).hdgLast = s.hdgLast := rfl
@[simp] theorem rxPop_frStage (n : Nat) : (rxPop n s).frStage = s.frStage := rfl
@[simp] theorem rxPop_crcAcc (n : Nat) : (rxPop n s).crcAcc = s.crcAcc := rfl
@[simp] theorem rxPop_fb (n : Nat) : (rxPop n s).fb = s.fb := rfl
@[simp] theorem rxPop_fbLen (n : Nat) : (rxPop n s).fbLen = s.fbLen := rfl
@[simp] theorem rxPop_rxCrc (n : Nat) : (rxPop n s).rxCrc = s.rxCrc := rfl
@[simp] theorem rxPop_consumed (n : Nat) : (rxPop n s).consumed = s.consumed + n := rfl
@[simp] theorem rxPop_pollPhase (n : Nat) : (rxPop n s).pollPhase = s.pollPhase := rfl
@[simp] theorem rxPop_fresh (n : Nat) : (rxPop n s).fresh = s.fresh := rfl
@[simp] theorem rxPop_valid (n : Nat) : (rxPop n s).valid = s.valid := rfl
@[simp] theorem rxPop_jamming (n : Nat) : (rxPop n s).jamming = s.jamming := rfl
@[simp] theorem rxPop_spoofing (n : Nat) : (rxPop n s).spoofing = s.spoofing := rfl
@[simp] theorem rxPop_reason (n : Nat) : (rxPop n s).reason = s.reason := rfl
@[simp] theorem rxPop_bestOk (n : Nat) : (rxPop n s).bestOk = s.bestOk := rfl
@[simp] theorem rxPop_hdgOk (n : Nat) : (rxPop n s).hdgOk = s.hdgOk := rfl
@[simp] theorem rxPop_events (n : Nat) : (rxPop n s).events = s.events := rfl
@[simp] theorem rxPop_snapOut (n : Nat) : (rxPop n s).snapOut = s.snapOut := rfl

/-! rxPush -/
@[simp] theorem rxPush_cfg (b : Byte) : (rxPush b s).cfg = s.cfg := rfl
@[simp] theorem rxPush_slots (b : Byte) : (rxPush b s).slots = s.slots := rfl
@[simp] theorem rxPush_rx (b : Byte) : (rxPush b s).rx = s.rx ++ [b] := rfl
@[simp] theorem rxPush_version (b : Byte) : (rxPush b s).version = s.version := rfl
@[simp] theorem rxPush_hwMonitor (b : Byte) : (rxPush b s).hwMonitor = s.hwMonitor := rfl
@[simp] theorem rxPush_rxStatus (b : Byte) : (rxPush b s).rxStatus = s.rxStatus := rfl
@[simp] theorem rxPush_rxStatusEvent (b : Byte) : (rxPush b s).rxStatusEvent = s.rxStatusEvent := rfl
@[simp] theorem rxPush_time (b : Byte) : (rxPush b s).time = s.time := rfl
@[simp] theorem rxPush_bestPos (b : Byte) : (rxPush b s).bestPos = s.bestPos := rfl
@[simp] theorem rxPush_heading2 (b : Byte) : (rxPush b s).heading2 = s.heading2 := rfl
@[simp] theorem rxPush_dualHeading (b : Byte) : (rxPush b s).dualHeading = s.dualHeading := rfl
@[simp] theorem rxPush_hdgLast (b : Byte) : (rxPush b s).hdgLast = s.hdgLast := rfl
@[simp] theorem rxPush_frStage (b : Byte) : (rxPush b s).frStage = s.frStage := rfl
@[simp] theorem rxPush_crcAcc (b : Byte) : (rxPush b s).crcAcc = s.crcAcc := rfl
@[simp] theorem rxPush_fb (b : Byte) : (rxPush b s).fb = s.fb := rfl
@[simp] theorem rxPush_fbLen (b : Byte) : (rxPush b s).fbLen = s.fbLen := rfl
@[simp] theorem rxPush_rxCrc (b : Byte) : (rxPush b s).rxCrc = s.rxCrc := rfl
@[simp] theorem rxPush_consumed (b : Byte) : (rxPush b s).consumed = s.consumed := rfl
@[simp] theorem rxPush_pollPhase (b : Byte) : (rxPush b s).pollPhase = s.pollPhase := rfl
@[simp] theorem rxPush_fresh (b : Byte) : (rxPush b s).fresh = s.fresh := rfl
@[simp] theorem rxPush_valid (b : Byte) : (rxPush b s).valid = s.valid := rfl
@[simp] theorem rxPush_jamming (b : Byte) : (rxPush b s).jamming = s.jamming := rfl
@[simp] theorem rxPush_spoofing (b : Byte) : (rxPush b s).spoofing = s.spoofing := rfl
@[simp] theorem rxPush_reason (b : Byte) : (rxPush b s).reason = s.reason := rfl
@[simp] theorem rxPush_bestOk (b : Byte) : (rxPush b s).bestOk = s.bestOk := rfl
@[simp] theorem rxPush_hdgOk (b : Byte) : (rxPush b s).hdgOk = s.hdgOk := rfl
@[simp] theorem rxPush_events (b : Byte) : (rxPush b s).events = s.events := rfl
@[simp] theorem rxPush_snapOut (b : Byte) : (rxPush b s).snapOut = s.snapOut := rfl

/-! fbWrite -/
@[simp] theorem fbWrite_cfg (a : Nat) (v : Bytes) : (fbWrite a v s).cfg = s.cfg := rfl
@[simp] theorem fbWrite_slots (a : Nat) (v : Bytes) : (fbWrite a v s).slots = s.slots := rfl
@[simp] theorem fbWrite_rx (a : Nat) (v : Bytes) : (fbWrite a v s).rx = s.rx := rfl
@[simp] theorem fbWrite_version (a : Nat) (v : Bytes) : (fbWrite a v s).version = s.version := rfl
@[simp] theorem fbWrite_hwMonitor (a : Nat) (v : Bytes) : (fbWrite a v s).hwMonitor = s.hwMonitor := rfl
@[simp] theorem fbWrite_rxStatus (a : Nat) (v : Bytes) : (fbWrite a v s).rxStatus = s.rxStatus := rfl
@[simp] theorem fbWrite_rxStatusEvent (a : Nat) (v : Bytes) : (fbWrite a v s).rxStatusEvent = s.rxStatusEvent := rfl
@[simp] theorem fbWrite_time (a : Nat) (v : Bytes) : (fbWrite a v s).time = s.time := rfl
@[simp] theorem fbWrite_bestPos (a : Nat) (v : Bytes) : (fbWrite a v s).bestPos = s.bestPos := rfl
@[simp] theorem fbWrite_heading2 (a : Nat) (v : Bytes) : (fbWrite a v s).heading2 = s.heading2 := rfl
@[simp] theorem fbWrite_dualHeading (a : Nat) (v : Bytes) : (fbWrite a v s).dualHeading = s.dualHeading := rfl
@[simp] theorem fbWrite_hdgLast (a : Nat) (v : Bytes) : (fbWrite a v s).hdgLast = s.hdgLast := rfl
@[simp] theorem fbWrite_frStage (a : Nat) (v : Bytes) : (fbWrite a v s).frStage = s.frStage := rfl
@[simp] theorem fbWrite_crcAcc (a : Nat) (v : Bytes) : (fbWrite a v s).crcAcc = s.crcAcc := rfl
@[simp] theorem fbWrite_fb (a : Nat) (v : Bytes) : (fbWrite a v s).fb = Memory.writeBytes s.fb a v := rfl
@[simp] theorem fbWrite_fbLen (a : Nat) (v : Bytes) : (fbWrite a v s).fbLen = a + v.length := rfl
@[simp] theorem fbWrite_rxCrc (a : Nat) (v : Bytes) : (fbWrite a v s).rxCrc = s.rxCrc := rfl
@[simp] theorem fbWrite_consumed (a : Nat) (v : Bytes) : (fbWrite a v s).consumed = s.consumed := rfl
@[simp] theorem fbWrite_pollPhase (a : Nat) (v : Bytes) : (fbWrite a v s).pollPhase = s.pollPhase := rfl
@[simp] theorem fbWrite_fresh (a : Nat) (v : Bytes) : (fbWrite a v s).fresh = s.fresh := rfl
@[simp] theorem fbWrite_valid (a : Nat) (v : Bytes) : (fbWrite a v s).valid = s.valid := rfl
@[simp] theorem fbWrite_jamming (a : Nat) (v : Bytes) : (fbWrite a v s).jamming = s.jamming := rfl
@[simp] theorem fbWrite_spoofing (a : Nat) (v : Bytes) : (fbWrite a v s).spoofing = s.spoofing := rfl
@[simp] theorem fbWrite_reason (a : Nat) (v : Bytes) : (fbWrite a v s).reason = s.reason := rfl
@[simp] theorem fbWrite_bestOk (a : Nat) (v : Bytes) : (fbWrite a v s).bestOk = s.bestOk := rfl
@[simp] theorem fbWrite_hdgOk (a : Nat) (v : Bytes) : (fbWrite a v s).hdgOk = s.hdgOk := rfl
@[simp] theorem fbWrite_events (a : Nat) (v : Bytes) : (fbWrite a v s).events = s.events := rfl
@[simp] theorem fbWrite_snapOut (a : Nat) (v : Bytes) : (fbWrite a v s).snapOut = s.snapOut := rfl

/-! crcClr -/
@[simp] theorem crcClr_cfg : (crcClr s).cfg = s.cfg := rfl
@[simp] theorem crcClr_slots : (crcClr s).slots = s.slots := rfl
@[simp] theorem crcClr_rx : (crcClr s).rx = s.rx := rfl
@[simp] theorem crcClr_version : (crcClr s).version = s.version := rfl
@[simp] theorem crcClr_hwMonitor : (crcClr s).hwMonitor = s.hwMonitor := rfl
@[simp] theorem crcClr_rxStatus : (crcClr s).rxStatus = s.rxStatus := rfl
@[simp] theorem crcClr_rxStatusEvent : (crcClr s).rxStatusEvent = s.rxStatusEvent := rfl
@[simp] theorem crcClr_time : (crcClr s).time = s.time := rfl
@[simp] theorem crcClr_bestPos : (crcClr s).bestPos = s.bestPos := rfl
@[simp] theorem crcClr_heading2 : (crcClr s).heading2 = s.heading2 := rfl
@[simp] theorem crcClr_dualHeading : (crcClr s).dualHeading = s.dualHeading := rfl
@[simp] theorem crcClr_hdgLast : (crcClr s).hdgLast = s.hdgLast := rfl
@[simp] theorem crcClr_frStage : (crcClr s).frStage = s.frStage := rfl
@[simp] theorem crcClr_crcAcc : (crcClr s).crcAcc = crcInit := rfl
@[simp] theorem crcClr_fb : (crcClr s).fb = s.fb := rfl
@[simp] theorem crcClr_fbLen : (crcClr s).fbLen = s.fbLen := rfl
@[simp] theorem crcClr_rxCrc : (crcClr s).rxCrc = s.rxCrc := rfl
@[simp] theorem crcClr_consumed : (crcClr s).consumed = s.consumed := rfl
@[simp] theorem crcClr_pollPhase : (crcClr s).pollPhase = s.pollPhase := rfl
@[simp] theorem crcClr_fresh : (crcClr s).fresh = s.fresh := rfl
@[simp] theorem crcClr_valid : (crcClr s).valid = s.valid := rfl
@[simp] theorem crcClr_jamming : (crcClr s).jamming = s.jamming := rfl
@[simp] theorem crcClr_spoofing : (crcClr s).spoofing = s.spoofing := rfl
@[simp] theorem crcClr_reason : (crcClr s).reason = s.reason := rfl
@[simp] theorem crcClr_bestOk : (crcClr s).bestOk = s.bestOk := rfl
@[simp] theorem crcClr_hdgOk : (crcClr s).hdgOk = s.hdgOk := rfl
@[simp] theorem crcClr_events : (crcClr s).events = s.events := rfl
@[simp] theorem crcClr_snapOut : (crcClr s).snapOut = s.snapOut := rfl

/-! crcUpd -/
@[simp] theorem crcUpd_cfg (v : Bytes) : (crcUpd v s).cfg = s.cfg := rfl
@[simp] theorem crcUpd_slots (v : Bytes) : (crcUpd v s).slots = s.slots := rfl
@[simp] theorem crcUpd_rx (v : Bytes) : (crcUpd v s).rx = s.rx := rfl
@[simp] theorem crcUpd_version (v : Bytes) : (crcUpd v s).version = s.version := rfl
@[simp] theorem crcUpd_hwMonitor (v : Bytes) : (crcUpd v s).hwMonitor = s.hwMonitor := rfl
@[simp] theorem crcUpd_rxStatus (v : Bytes) : (crcUpd v s).rxStatus = s.rxStatus := rfl
@[simp] theorem crcUpd_rxStatusEvent (v : Bytes) : (crcUpd v s).rxStatusEvent = s.rxStatusEvent := rfl
@[simp] theorem crcUpd_time (v : Bytes) : (crcUpd v s).time = s.time := rfl
@[simp] theorem crcUpd_bestPos (v : Bytes) : (crcUpd v s).bestPos = s.bestPos := rfl
@[simp] theorem crcUpd_heading2 (v : Bytes) : (crcUpd v s).heading2 = s.heading2 := rfl
@[simp] theorem crcUpd_dualHeading (v : Bytes) : (crcUpd v s).dualHeading = s.dualHeading := rfl
@[simp] theorem crcUpd_hdgLast (v : Bytes) : (crcUpd v s).hdgLast = s.hdgLast := rfl
@[simp] theorem crcUpd_frStage (v : Bytes) : (crcUpd v s).frStage = s.frStage := rfl
@[simp] theorem crcUpd_crcAcc (v : Bytes) : (crcUpd v s).crcAcc = crcFold s.crcAcc v := rfl
@[simp] theorem crcUpd_fb (v : Bytes) : (crcUpd v s).fb = s.fb := rfl
@[simp] theorem crcUpd_fbLen (v : Bytes) : (crcUpd v s).fbLen = s.fbLen := rfl
@[simp] theorem crcUpd_rxCrc (v : Bytes) : (crcUpd v s).rxCrc = s.rxCrc := rfl
@[simp] theorem crcUpd_consumed (v : Bytes) : (crcUpd v s).consumed = s.consumed := rfl
@[simp] theorem crcUpd_pollPhase (v : Bytes) : (crcUpd v s).pollPhase = s.pollPhase := rfl
@[simp] theorem crcUpd_fresh (v : Bytes) : (crcUpd v s).fresh = s.fresh := rfl
@[simp] theorem crcUpd_valid (v : Bytes) : (crcUpd v s).valid = s.valid := rfl
@[simp] theorem crcUpd_jamming (v : Bytes) : (crcUpd v s).jamming = s.jamming := rfl
@[simp] theorem crcUpd_spoofing (v : Bytes) : (crcUpd v s).spoofing = s.spoofing := rfl
@[simp] theorem crcUpd_reason (v : Bytes) : (crcUpd v s).reason = s.reason := rfl
@[simp] theorem crcUpd_bestOk (v : Bytes) : (crcUpd v s).bestOk = s.bestOk := rfl
@[simp] theorem crcUpd_hdgOk (v : Bytes) : (crcUpd v s).hdgOk = s.hdgOk := rfl
@[simp] theorem crcUpd_events (v : Bytes) : (crcUpd v s).events = s.events := rfl
@[simp] theorem crcUpd_snapOut (v : Bytes) : (crcUpd v s).snapOut = s.snapOut := rfl

/-! setStage -/
@[simp] theorem setStage_cfg (g : Stage) : (setStage g s).cfg = s.cfg := rfl
@[simp] theorem setStage_slots (g : Stage) : (setStage g s).slots = s.slots := rfl
@[simp] theorem setStage_rx (g : Stage) : (setStage g s).rx = s.rx := rfl
@[simp] theorem setStage_version (g : Stage) : (setStage g s).version = s.version := rfl
@[simp] theorem setStage_hwMonitor (g : Stage) : (setStage g s).hwMonitor = s.hwMonitor := rfl
@[simp] theorem setStage_rxStatus (g : Stage) : (setStage g s).rxStatus = s.rxStatus := rfl
@[simp] theorem setStage_rxStatusEvent (g : Stage) : (setStage g s).rxStatusEvent = s.rxStatusEvent := rfl
@[simp] theorem setStage_time (g : Stage) : (setStage g s).time = s.time := rfl
@[simp] theorem setStage_bestPos (g : Stage) : (setStage g s).bestPos = s.bestPos := rfl
@[simp] theorem setStage_heading2 (g : Stage) : (setStage g s).heading2 = s.heading2 := rfl
@[simp] theorem setStage_dualHeading (g : Stage) : (setStage g s).dualHeading = s.dualHeading := rfl
@[simp] theorem setStage_hdgLast (g : Stage) : (setStage g s).hdgLast = s.hdgLast := rfl
@[simp] theorem setStage_frStage (g : Stage) : (setStage g s).frStage = g := rfl
@[simp] theorem setStage_crcAcc (g : Stage) : (setStage g s).crcAcc = s.crcAcc := rfl
@[simp] theorem setStage_fb (g : Stage) : (setStage g s).fb = s.fb := rfl
@[simp] theorem setStage_fbLen (g : Stage) : (setStage g s).fbLen = s.fbLen := rfl
@[simp] theorem setStage_rxCrc (g : Stage) : (setStage g s).rxCrc = s.rxCrc := rfl
@[simp] theorem setStage_consumed (g : Stage) : (setStage g s).consumed = s.consumed := rfl
@[simp] theorem setStage_pollPhase (g : Stage) : (setStage g s).pollPhase = s.pollPhase := rfl
@[simp] theorem setStage_fresh (g : Stage) : (setStage g s).fresh = s.fresh := rfl
@[simp] theorem setStage_valid (g : Stage) : (setStage g s).valid = s.valid := rfl
@[simp] theorem setStage_jamming (g : Stage) : (setStage g s).jamming = s.jamming := rfl
@[simp] theorem setStage_spoofing (g : Stage) : (setStage g s).spoofing = s.spoofing := rfl
@[simp] theorem setStage_reason (g : Stage) : (setStage g s).reason = s.reason := rfl
@[simp] theorem setStage_bestOk (g : Stage) : (setStage g s).bestOk = s.bestOk := rfl
@[simp] theorem setStage_hdgOk (g : Stage) : (setStage g s).hdgOk = s.hdgOk := rfl
@[simp] theorem setStage_events (g : Stage) : (setStage g s).events = s.events := rfl
@[simp] theorem setStage_snapOut (g : Stage) : (setStage g s).snapOut = s.snapOut := rfl

/-! emit -/
@[simp] theorem emit_cfg (ev : Event) : (emit ev s).cfg = s.cfg := rfl
@[simp] theorem emit_slots (ev : Event) : (emit ev s).slots = s.slots := rfl
@[simp] theorem emit_rx (ev : Event) : (emit ev s).rx = s.rx := rfl
@[simp] theorem emit_version (ev : Event) : (emit ev s).version = s.version := rfl
@[simp] theorem emit_hwMonitor (ev : Event) : (emit ev s).hwMonitor = s.hwMonitor := rfl
@[simp] theorem emit_rxStatus (ev : Event) : (emit ev s).rxStatus = s.rxStatus := rfl
@[simp] theorem emit_rxStatusEvent (ev : Event) : (emit ev s).rxStatusEvent = s.rxStatusEvent := rfl
@[simp] theorem emit_time (ev : Event) : (emit ev s).time = s.time := rfl
@[simp] theorem emit_bestPos (ev : Event) : (emit ev s).bestPos = s.bestPos := rfl
@[simp] theorem emit_heading2 (ev : Event) : (emit ev s).heading2 = s.heading2 := rfl
@[simp] theorem emit_dualHeading (ev : Event) : (emit ev s).dualHeading = s.dualHeading := rfl
@[simp] theorem emit_hdgLast (ev : Event) : (emit ev s).hdgLast = s.hdgLast := rfl
@[simp] theorem emit_frStage (ev : Event) : (emit ev s).frStage = s.frStage := rfl
@[simp] theorem emit_crcAcc (ev : Event) : (emit ev s).crcAcc = s.crcAcc := rfl
@[simp] theorem emit_fb (ev : Event) : (emit ev s).fb = s.fb := rfl
@[simp] theorem emit_fbLen (ev : Event) : (emit ev s).fbLen = s.fbLen := rfl
@[simp] theorem emit_rxCrc (ev : Event) : (emit ev s).rxCrc = s.rxCrc := rfl
@[simp] theorem emit_consumed (ev : Event) : (emit ev s).consumed = s.consumed := rfl
@[simp] theorem emit_pollPhase (ev : Event) : (emit ev s).pollPhase = s.pollPhase := rfl
@[simp] theorem emit_fresh (ev : Event) : (emit ev s).fresh = s.fresh := rfl
@[simp] theorem emit_valid (ev : Event) : (emit ev s).valid = s.valid := rfl
@[simp] theorem emit_jamming (ev : Event) : (emit ev s).jamming = s.jamming := rfl
@[simp] theorem emit_spoofing (ev : Event) : (emit ev s).spoofing = s.spoofing := rfl
@[simp] theorem emit_reason (ev : Event) : (emit ev s).reason = s.reason := rfl
@[simp] theorem emit_bestOk (ev : Event) : (emit ev s).bestOk = s.bestOk := rfl
@[simp] theorem emit_hdgOk (ev : Event) : (emit ev s).hdgOk = s.hdgOk := rfl
@[simp] theorem emit_events (ev : Event) : (emit ev s).events = s.events ++ [ev] := rfl
@[simp] theorem emit_snapOut (ev : Event) : (emit ev s).snapOut = s.snapOut := rfl

/-! endAttempt -/
@[simp] theorem endAttempt_cfg (r : AttemptResult) : (endAttempt r s).cfg = s.cfg := rfl
@[simp] theorem endAttempt_slots (r : AttemptResult) : (endAttempt r s).slots = s.slots := rfl
@[simp] theorem endAttempt_rx (r : AttemptResult) : (endAttempt r s).rx = s.rx := rfl
@[simp] theorem endAttempt_version (r : AttemptResult) : (endAttempt r s).version = s.version := rfl
@[simp] theorem endAttempt_hwMonitor (r : AttemptResult) : (endAttempt r s).hwMonitor = s.hwMonitor := rfl
@[simp] theorem endAttempt_rxStatus (r : AttemptResult) : (endAttempt r s).rxStatus = s.rxStatus := rfl
@[simp] theorem endAttempt_rxStatusEvent (r : AttemptResult) : (endAttempt r s).rxStatusEvent = s.rxStatusEvent := rfl
@[simp] theorem endAttempt_time (r : AttemptResult) : (endAttempt r s).time = s.time := rfl
@[simp] theorem endAttempt_bestPos (r : AttemptResult) : (endAttempt r s).bestPos = s.bestPos := rfl
@[simp] theorem endAttempt_heading2 (r : AttemptResult) : (endAttempt r s).heading2 = s.heading2 := rfl
@[simp] theorem endAttempt_dualHeading (r : AttemptResult) : (endAttempt r s).dualHeading = s.dualHeading := rfl
@[simp] theorem endAttempt_hdgLast (r : AttemptResult) : (endAttempt r s).hdgLast = s.hdgLast := rfl
@[simp] theorem endAttempt_frStage (r : AttemptResult) : (endAttempt r s).frStage = .idle := rfl
@[simp] theorem endAttempt_crcAcc (r : AttemptResult) : (endAttempt r s).crcAcc = s.crcAcc := rfl
@[simp] theorem endAttempt_fb (r : AttemptResult) : (endAttempt r s).fb = s.fb := rfl
@[simp] theorem endAttempt_fbLen (r : AttemptResult) : (endAttempt r s).fbLen = s.fbLen := rfl
@[simp] theorem endAttempt_rxCrc (r : AttemptResult) : (endAttempt r s).rxCrc = s.rxCrc := rfl
@[simp] theorem endAttempt_consumed (r : AttemptResult) : (endAttempt r s).consumed = s.consumed := rfl
@[simp] theorem endAttempt_pollPhase (r : AttemptResult) : (endAttempt r s).pollPhase = .guard := rfl
@[simp] theorem endAttempt_fresh (r : AttemptResult) : (endAttempt r s).fresh = s.fresh := rfl
@[simp] theorem endAttempt_valid (r : AttemptResult) : (endAttempt r s).valid = s.valid := rfl
@[simp] theorem endAttempt_jamming (r : AttemptResult) : (endAttempt r s).jamming = s.jamming := rfl
@[simp] theorem endAttempt_spoofing (r : AttemptResult) : (endAttempt r s).spoofing = s.spoofing := rfl
@[simp] theorem endAttempt_reason (r : AttemptResult) : (endAttempt r s).reason = s.reason := rfl
@[simp] theorem endAttempt_bestOk (r : AttemptResult) : (endAttempt r s).bestOk = s.bestOk := rfl
@[simp] theorem endAttempt_hdgOk (r : AttemptResult) : (endAttempt r s).hdgOk = s.hdgOk := rfl
@[simp] theorem endAttempt_events (r : AttemptResult) : (endAttempt r s).events = s.events ++ [.attempt s.consumed r] := rfl
@[simp] theorem endAttempt_snapOut (r : AttemptResult) : (endAttempt r s).snapOut = s.snapOut := rfl

/-! markFresh -/
@[simp] theorem markFresh_cfg (k : Kind) : (markFresh k s).cfg = s.cfg := rfl
@[simp] theorem markFresh_slots (k : Kind) : (markFresh k s).slots = s.slots := rfl
@[simp] theorem markFresh_rx (k : Kind) : (markFresh k s).rx = s.rx := rfl
@[simp] theorem markFresh_version (k : Kind) : (markFresh k s).version = s.version := rfl
@[simp] theorem markFresh_hwMonitor (k : Kind) : (markFresh k s).hwMonitor = s.hwMonitor := rfl
@[simp] theorem markFresh_rxStatus (k : Kind) : (markFresh k s).rxStatus = s.rxStatus := rfl
@[simp] theorem markFresh_rxStatusEvent (k : Kind) : (markFresh k s).rxStatusEvent = s.rxStatusEvent := rfl
@[simp] theorem markFresh_time (k : Kind) : (markFresh k s).time = s.time := rfl
@[simp] theorem markFresh_bestPos (k : Kind) : (markFresh k s).bestPos = s.bestPos := rfl
@[simp] theorem markFresh_heading2 (k : Kind) : (markFresh k s).heading2 = s.heading2 := rfl
@[simp] theorem markFresh_dualHeading (k : Kind) : (markFresh k s).dualHeading = s.dualHeading := rfl
@[simp] theorem markFresh_frStage (k : Kind) : (markFresh k s).frStage = s.frStage := rfl
@[simp] theorem markFresh_crcAcc (k : Kind) : (markFresh k s).crcAcc = s.crcAcc := rfl
@[simp] theorem markFresh_fb (k : Kind) : (markFresh k s).fb = s.fb := rfl
@[simp] theorem markFresh_fbLen (k : Kind) : (markFresh k s).fbLen = s.fbLen := rfl
@[simp] theorem markFresh_rxCrc (k : Kind) : (markFresh k s).rxCrc = s.rxCrc := rfl
@[simp] theorem markFresh_consumed (k : Kind) : (markFresh k s).consumed = s.consumed := rfl
@[simp] theorem markFresh_pollPhase (k : Kind) : (markFresh k s).pollPhase = s.pollPhase := rfl
@[simp] theorem markFresh_fresh (k : Kind) : (markFresh k s).fresh = s.fresh ||| (1#8 <<< kindIndex k) := rfl
@[simp] theorem markFresh_valid (k : Kind) : (markFresh k s).valid = s.valid := rfl
@[simp] theorem markFresh_jamming (k : Kind) : (markFresh k s).jamming = s.jamming := rfl
@[simp] theorem markFresh_spoofing (k : Kind) : (markFresh k s).spoofing = s.spoofing := rfl
@[simp] theorem markFresh_reason (k : Kind) : (markFresh k s).reason = s.reason := rfl
@[simp] theorem markFresh_bestOk (k : Kind) : (markFresh k s).bestOk = s.bestOk := rfl
@[simp] theorem markFresh_hdgOk (k : Kind) : (markFresh k s).hdgOk = s.hdgOk := rfl
@[simp] theorem markFresh_events (k : Kind) : (markFresh k s).events = s.events := rfl
@[simp] theorem markFresh_snapOut (k : Kind) : (markFresh k s).snapOut = s.snapOut := rfl

/-! setFixed -/
@[simp] theorem setFixed_cfg (k : FixedKind) (v : Bytes) : (setFixed k v s).cfg = s.cfg := by cases k <;> rfl
@[simp] theorem setFixed_slots (k : FixedKind) (v : Bytes) : (setFixed k v s).slots = s.slots := by cases k <;> rfl
@[simp] theorem setFixed_rx (k : FixedKind) (v : Bytes) : (setFixed k v s).rx = s.rx := by cases k <;> rfl
@[simp] theorem setFixed_version (k : FixedKind) (v : Bytes) : (setFixed k v s).version = s.version := by cases k <;> rfl
@[simp] theorem setFixed_hwMonitor (k : FixedKind) (v : Bytes) : (setFixed k v s).hwMonitor = s.hwMonitor := by cases k <;> rfl
@[simp] theorem setFixed_hdgLast (k : FixedKind) (v : Bytes) : (setFixed k v s).hdgLast = s.hdgLast := by cases k <;> rfl
@[simp] theorem setFixed_frStage (k : FixedKind) (v : Bytes) : (setFixed k v s).frStage = s.frStage := by cases k <;> rfl
@[simp] theorem setFixed_crcAcc (k : FixedKind) (v : Bytes) : (setFixed k v s).crcAcc = s.crcAcc := by cases k <;> rfl
@[simp] theorem setFixed_fb (k : FixedKind) (v : Bytes) : (setFixed k v s).fb = s.fb := by cases k <;> rfl
@[simp] theorem setFixed_fbLen (k : FixedKind) (v : Bytes) : (setFixed k v s).fbLen = s.fbLen := by cases k <;> rfl
@[simp] theorem setFixed_rxCrc (k : FixedKind) (v : Bytes) : (setFixed k v s).rxCrc = s.rxCrc := by cases k <;> rfl
@[simp] theorem setFixed_consumed (k : FixedKind) (v : Bytes) : (setFixed k v s).consumed = s.consumed := by cases k <;> rfl
@[simp] theorem setFixed_pollPhase (k : FixedKind) (v : Bytes) : (setFixed k v s).pollPhase = s.pollPhase := by cases k <;> rfl
@[simp] theorem setFixed_fresh (k : FixedKind) (v : Bytes) : (setFixed k v s).fresh = s.fresh := by cases k <;> rfl
@[simp] theorem setFixed_valid (k : FixedKind) (v : Bytes) : (setFixed k v s).valid = s.valid := by cases k <;> rfl
@[simp] theorem setFixed_jamming (k : FixedKind) (v : Bytes) : (setFixed k v s).jamming = s.jamming := by cases k <;> rfl
@[simp] theorem setFixed_spoofing (k : FixedKind) (v : Bytes) : (setFixed k v s).spoofing = s.spoofing := by cases k <;> rfl
@[simp] theorem setFixed_reason (k : FixedKind) (v : Bytes) : (setFixed k v s).reason = s.reason := by cases k <;> rfl
@[simp] theorem setFixed_bestOk (k : FixedKind) (v : Bytes) : (setFixed k v s).bestOk = s.bestOk := by cases k <;> rfl
@[simp] theorem setFixed_hdgOk (k : FixedKind) (v : Bytes) : (setFixed k v s).hdgOk = s.hdgOk := by cases k <;> rfl
@[simp] theorem setFixed_events (k : FixedKind) (v : Bytes) : (setFixed k v s).events = s.events := by cases k <;> rfl
@[simp] theorem setFixed_snapOut (k : FixedKind) (v : Bytes) : (setFixed k v s).snapOut = s.snapOut := by cases k <;> rfl

/-! setCounted -/
@[simp] theorem setCounted_cfg (k : CountedKind) (v : CountedStore) : (setCounted k v s).cfg = s.cfg := by cases k <;> rfl
@[simp] theorem setCounted_slots (k : CountedKind) (v : CountedStore) : (setCounted k v s).slots = s.slots := by cases k <;> rfl
@[simp] theorem setCounted_rx (k : CountedKind) (v : CountedStore) : (setCounted k v s).rx = s.rx := by cases k <;> rfl
@[simp] theorem setCounted_rxStatus (k : CountedKind) (v : CountedStore) : (setCounted k v s).rxStatus = s.rxStatus := by cases k <;> rfl
@[simp] theorem setCounted_rxStatusEvent (k : CountedKind) (v : CountedStore) : (setCounted k v s).rxStatusEvent = s.rxStatusEvent := by cases k <;> rfl
@[simp] theorem setCounted_time (k : CountedKind) (v : CountedStore) : (setCounted k v s).time = s.time := by cases k <;> rfl
@[simp] theorem setCounted_bestPos (k : CountedKind) (v : CountedStore) : (setCounted k v s).bestPos = s.bestPos := by cases k <;> rfl
@[simp] theorem setCounted_heading2 (k : CountedKind) (v : CountedStore) : (setCounted k v s).heading2 = s.heading2 := by cases k <;> rfl
@[simp] theorem setCounted_dualHeading (k : CountedKind) (v : CountedStore) : (setCounted k v s).dualHeading = s.dualHeading := by cases k <;> rfl
@[simp] theorem setCounted_hdgLast (k : CountedKind) (v : CountedStore) : (setCounted k v s).hdgLast = s.hdgLast := by cases k <;> rfl
@[simp] theorem setCounted_frStage (k : CountedKind) (v : CountedStore) : (setCounted k v s).frStage = s.frStage := by cases k <;> rfl
@[simp] theorem setCounted_crcAcc (k : CountedKind) (v : CountedStore) : (setCounted k v s).crcAcc = s.crcAcc := by cases k <;> rfl
@[simp] theorem setCounted_fb (k : CountedKind) (v : CountedStore) : (setCounted k v s).fb = s.fb := by cases k <;> rfl
@[simp] theorem setCounted_fbLen (k : CountedKind) (v : CountedStore) : (setCounted k v s).fbLen = s.fbLen := by cases k <;> rfl
@[simp] theorem setCounted_rxCrc (k : CountedKind) (v : CountedStore) : (setCounted k v s).rxCrc = s.rxCrc := by cases k <;> rfl
@[simp] theorem setCounted_consumed (k : CountedKind) (v : CountedStore) : (setCounted k v s).consumed = s.consumed := by cases k <;> rfl
@[simp] theorem setCounted_pollPhase (k : CountedKind) (v : CountedStore) : (setCounted k v s).pollPhase = s.pollPhase := by cases k <;> rfl
@[simp] theorem setCounted_fresh (k : CountedKind) (v : CountedStore) : (setCounted k v s).fresh = s.fresh := by cases k <;> rfl
@[simp] theorem setCounted_valid (k : CountedKind) (v : CountedStore) : (setCounted k v s).valid = s.valid := by cases k <;> rfl
@[simp] theorem setCounted_jamming (k : CountedKind) (v : CountedStore) : (setCounted k v s).jamming = s.jamming := by cases k <;> rfl
@[simp] theorem setCounted_spoofing (k : CountedKind) (v : CountedStore) : (setCounted k v s).spoofing = s.spoofing := by cases k <;> rfl
@[simp] theorem setCounted_reason (k : CountedKind) (v : CountedStore) : (setCounted k v s).reason = s.reason := by cases k <;> rfl
@[simp] theorem setCounted_bestOk (k : CountedKind) (v : CountedStore) : (setCounted k v s).bestOk = s.bestOk := by cases k <;> rfl
@[simp] theorem setCounted_hdgOk (k : CountedKind) (v : CountedStore) : (setCounted k v s).hdgOk = s.hdgOk := by cases k <;> rfl
@[simp] theorem setCounted_events (k : CountedKind) (v : CountedStore) : (setCounted k v s).events = s.events := by cases k <;> rfl
@[simp] theorem setCounted_snapOut (k : CountedKind) (v : CountedStore) : (setCounted k v s).snapOut = s.snapOut := by cases k <;> rfl

/-! commitFixed -/
@[simp] theorem commitFixed_cfg (k : FixedKind) (v : Bytes) : (commitFixed k v s).cfg = s.cfg := by cases k <;> rfl
@[simp] theorem commitFixed_slots (k : FixedKind) (v : Bytes) : (commitFixed k v s).slots = s.slots := by cases k <;> rfl
@[simp] theorem commitFixed_rx (k : FixedKind) (v : Bytes) : (commitFixed k v s).rx = s.rx := by cases k <;> rfl
@[simp] theorem commitFixed_version (k : FixedKind) (v : Bytes) : (commitFixed k v s).version = s.version := by cases k <;> rfl
@[simp] theorem commitFixed_hwMonitor (k : FixedKind) (v : Bytes) : (commitFixed k v s).hwMonitor = s.hwMonitor := by cases k <;> rfl
@[simp] theorem commitFixed_frStage (k : FixedKind) (v : Bytes) : (commitFixed k v s).frStage = s.frStage := by cases k <;> rfl
@[simp] theorem commitFixed_crcAcc (k : FixedKind) (v : Bytes) : (commitFixed k v s).crcAcc = s.crcAcc := by cases k <;> rfl
@[simp] theorem commitFixed_fb (k : FixedKind) (v : Bytes) : (commitFixed k v s).fb = s.fb := by cases k <;> rfl
@[simp] theorem commitFixed_fbLen (k : FixedKind) (v : Bytes) : (commitFixed k v s).fbLen = s.fbLen := by cases k <;> rfl
@[simp] theorem commitFixed_rxCrc (k : FixedKind) (v : Bytes) : (commitFixed k v s).rxCrc = s.rxCrc := by cases k <;> rfl
@[simp] theorem commitFixed_consumed (k : FixedKind) (v : Bytes) : (commitFixed k v s).consumed = s.consumed := by cases k <;> rfl
@[simp] theorem commitFixed_pollPhase (k : FixedKind) (v : Bytes) : (commitFixed k v s).pollPhase = s.pollPhase := by cases k <;> rfl
@[simp] theorem commitFixed_fresh (k : FixedKind) (v : Bytes) : (commitFixed k v s).fresh = s.fresh ||| (1#8 <<< kindIndex (fixedToKind k)) := by cases k <;> rfl
@[simp] theorem commitFixed_valid (k : FixedKind) (v : Bytes) : (commitFixed k v s).valid = s.valid := by cases k <;> rfl
@[simp] theorem commitFixed_jamming (k : FixedKind) (v : Bytes) : (commitFixed k v s).jamming = s.jamming := by cases k <;> rfl
@[simp] theorem commitFixed_spoofing (k : FixedKind) (v : Bytes) : (commitFixed k v s).spoofing = s.spoofing := by cases k <;> rfl
@[simp] theorem commitFixed_reason (k : FixedKind) (v : Bytes) : (commitFixed k v s).reason = s.reason := by cases k <;> rfl
@[simp] theorem commitFixed_bestOk (k : FixedKind) (v : Bytes) : (commitFixed k v s).bestOk = s.bestOk := by cases k <;> rfl
@[simp] theorem commitFixed_hdgOk (k : FixedKind) (v : Bytes) : (commitFixed k v s).hdgOk = s.hdgOk := by cases k <;> rfl
@[simp] theorem commitFixed_events (k : FixedKind) (v : Bytes) : (commitFixed k v s).events = s.events := by cases k <;> rfl
@[simp] theorem commitFixed_snapOut (k : FixedKind) (v : Bytes) : (commitFixed k v s).snapOut = s.snapOut := by cases k <;> rfl

/-! commitCounted -/
@[simp] theorem commitCounted_cfg (k : CountedKind) (v : CountedStore) : (commitCounted k v s).cfg = s.cfg := by cases k <;> rfl
@[simp] theorem commitCounted_slots (k : CountedKind) (v : CountedStore) : (commitCounted k v s).slots = s.slots := by cases k <;> rfl
@[simp] theorem commitCounted_rx (k : CountedKind) (v : CountedStore) : (commitCounted k v s).rx = s.rx := by cases k <;> rfl
@[simp] theorem commitCounted_rxStatus (k : CountedKind) (v : CountedStore) : (commitCounted k v s).rxStatus = s.rxStatus := by cases k <;> rfl
@[simp] theorem commitCounted_rxStatusEvent (k : CountedKind) (v : CountedStore) : (commitCounted k v s).rxStatusEvent = s.rxStatusEvent := by cases k <;> rfl
@[simp] theorem commitCounted_time (k : CountedKind) (v : CountedStore) : (commitCounted k v s).time = s.time := by cases k <;> rfl
@[simp] theorem commitCounted_bestPos (k : CountedKind) (v : CountedStore) : (commitCounted k v s).bestPos = s.bestPos := by cases k <;> rfl
@[simp] theorem commitCounted_heading2 (k : CountedKind) (v : CountedStore) : (commitCounted k v s).heading2 = s.heading2 := by cases k <;> rfl
@[simp] theorem commitCounted_dualHeading (k : CountedKind) (v : CountedStore) : (commitCounted k v s).dualHeading = s.dualHeading := by cases k <;> rfl
@[simp] theorem commitCounted_hdgLast (k : CountedKind) (v : CountedStore) : (commitCounted k v s).hdgLast = s.hdgLast := by cases k <;> rfl
@[simp] theorem commitCounted_frStage (k : CountedKind) (v : CountedStore) : (commitCounted k v s).frStage = s.frStage := by cases k <;> rfl
@[simp] theorem commitCounted_crcAcc (k : CountedKind) (v : CountedStore) : (commitCounted k v s).crcAcc = s.crcAcc := by cases k <;> rfl
@[simp] theorem commitCounted_fb (k : CountedKind) (v : CountedStore) : (commitCounted k v s).fb = s.fb := by cases k <;> rfl
@[simp] theorem commitCounted_fbLen (k : CountedKind) (v : CountedStore) : (commitCounted k v s).fbLen = s.fbLen := by cases k <;> rfl
@[simp] theorem commitCounted_rxCrc (k : CountedKind) (v : CountedStore) : (commitCounted k v s).rxCrc = s.rxCrc := by cases k <;> rfl
@[simp] theorem commitCounted_consumed (k : CountedKind) (v : CountedStore) : (commitCounted k v s).consumed = s.consumed := by cases k <;> rfl
@[simp] theorem commitCounted_pollPhase (k : CountedKind) (v : CountedStore) : (commitCounted k v s).pollPhase = s.pollPhase := by cases k <;> rfl
@[simp] theorem commitCounted_fresh (k : CountedKind) (v : CountedStore) : (commitCounted k v s).fresh = s.fresh ||| (1#8 <<< kindIndex (countedToKind k)) := by cases k <;> rfl
@[simp] theorem commitCounted_valid (k : CountedKind) (v : CountedStore) : (commitCounted k v s).valid = s.valid := by cases k <;> rfl
@[simp] theorem commitCounted_jamming (k : CountedKind) (v : CountedStore) : (commitCounted k v s).jamming = s.jamming := by cases k <;> rfl
@[simp] theorem commitCounted_spoofing (k : CountedKind) (v : CountedStore) : (commitCounted k v s).spoofing = s.spoofing := by cases k <;> rfl
@[simp] theorem commitCounted_reason (k : CountedKind) (v : CountedStore) : (commitCounted k v s).reason = s.reason := by cases k <;> rfl
@[simp] theorem commitCounted_bestOk (k : CountedKind) (v : CountedStore) : (commitCounted k v s).bestOk = s.bestOk := by cases k <;> rfl
@[simp] theorem commitCounted_hdgOk (k : CountedKind) (v : CountedStore) : (commitCounted k v s).hdgOk = s.hdgOk := by cases k <;> rfl
@[simp] theorem commitCounted_events (k : CountedKind) (v : CountedStore) : (commitCounted k v s).events = s.events := by cases k <;> rfl
@[simp] theorem commitCounted_snapOut (k : CountedKind) (v : CountedStore) : (commitCounted k v s).snapOut = s.snapOut := by cases k <;> rfl

/-! pollStart -/
@[simp] theorem pollStart_cfg : (pollStart s).cfg = s.cfg := rfl
@[simp] theorem pollStart_slots : (pollStart s).slots = s.slots := rfl
@[simp] theorem pollStart_rx : (pollStart s).rx = s.rx := rfl
@[simp] theorem pollStart_version : (pollStart s).version = s.version := rfl
@[simp] theorem pollStart_hwMonitor : (pollStart s).hwMonitor = s.hwMonitor := rfl
@[simp] theorem pollStart_rxStatus : (pollStart s).rxStatus = s.rxStatus := rfl
@[simp] theorem pollStart_rxStatusEvent : (pollStart s).rxStatusEvent = s.rxStatusEvent := rfl
@[simp] theorem pollStart_time : (pollStart s).time = s.time := rfl
@[simp] theorem pollStart_bestPos : (pollStart s).bestPos = s.bestPos := rfl
@[simp] theorem pollStart_heading2 : (pollStart s).heading2 = s.heading2 := rfl
@[simp] theorem pollStart_dualHeading : (pollStart s).dualHeading = s.dualHeading := rfl
@[simp] theorem pollStart_hdgLast : (pollStart s).hdgLast = s.hdgLast := rfl
@[simp] theorem pollStart_frStage : (pollStart s).frStage = s.frStage := rfl
@[simp] theorem pollStart_crcAcc : (pollStart s).crcAcc = s.crcAcc := rfl
@[simp] theorem pollStart_fb : (pollStart s).fb = s.fb := rfl
@[simp] theorem pollStart_fbLen : (pollStart s).fbLen = s.fbLen := rfl
@[simp] theorem pollStart_rxCrc : (pollStart s).rxCrc = s.rxCrc := rfl
@[simp] theorem pollStart_consumed : (pollStart s).consumed = s.consumed := rfl
@[simp] theorem pollStart_pollPhase : (pollStart s).pollPhase = .guard := rfl
@[simp] theorem pollStart_fresh : (pollStart s).fresh = 0#8 := rfl
@[simp] theorem pollStart_valid : (pollStart s).valid = false := rfl
@[simp] theorem pollStart_jamming : (pollStart s).jamming = s.jamming := rfl
@[simp] theorem pollStart_spoofing : (pollStart s).spoofing = s.spoofing := rfl
@[simp] theorem pollStart_reason : (pollStart s).reason = s.reason := rfl
@[simp] theorem pollStart_bestOk : (pollStart s).bestOk = s.bestOk := rfl
@[simp] theorem pollStart_hdgOk : (pollStart s).hdgOk = s.hdgOk := rfl
@[simp] theorem pollStart_events : (pollStart s).events = s.events := rfl
@[simp] theorem pollStart_snapOut : (pollStart s).snapOut = s.snapOut := rfl

/-! snapState -/
@[simp] theorem snapState_cfg : (snapState s).cfg = s.cfg := rfl
@[simp] theorem snapState_slots : (snapState s).slots = s.slots := rfl
@[simp] theorem snapState_rx : (snapState s).rx = s.rx := rfl
@[simp] theorem snapState_version : (snapState s).version = s.version := rfl
@[simp] theorem snapState_hwMonitor : (snapState s).hwMonitor = s.hwMonitor := rfl
@[simp] theorem snapState_rxStatus : (snapState s).rxStatus = s.rxStatus := rfl
@[simp] theorem snapState_rxStatusEvent : (snapState s).rxStatusEvent = s.rxStatusEvent := rfl
@[simp] theorem snapState_time : (snapState s).time = s.time := rfl
@[simp] theorem snapState_bestPos : (snapState s).bestPos = s.bestPos := rfl
@[simp] theorem snapState_heading2 : (snapState s).heading2 = s.heading2 := rfl
@[simp] theorem snapState_dualHeading : (snapState s).dualHeading = s.dualHeading := rfl
@[simp] theorem snapState_hdgLast : (snapState s).hdgLast = s.hdgLast := rfl
@[simp] theorem snapState_frStage : (snapState s).frStage = s.frStage := rfl
@[simp] theorem snapState_crcAcc : (snapState s).crcAcc = s.crcAcc := rfl
@[simp] theorem snapState_fb : (snapState s).fb = s.fb := rfl
@[simp] theorem snapState_fbLen : (snapState s).fbLen = s.fbLen := rfl
@[simp] theorem snapState_rxCrc : (snapState s).rxCrc = s.rxCrc := rfl
@[simp] theorem snapState_consumed : (snapState s).consumed = s.consumed := rfl
@[simp] theorem snapState_pollPhase : (snapState s).pollPhase = s.pollPhase := rfl
@[simp] theorem snapState_fresh : (snapState s).fresh = s.fresh := rfl
@[simp] theorem snapState_valid : (snapState s).valid = s.valid := rfl
@[simp] theorem snapState_jamming : (snapState s).jamming = s.jamming := rfl
@[simp] theorem snapState_spoofing : (snapState s).spoofing = s.spoofing := rfl
@[simp] theorem snapState_reason : (snapState s).reason = s.reason := rfl
@[simp] theorem snapState_bestOk : (snapState s).bestOk = s.bestOk := rfl
@[simp] theorem snapState_hdgOk : (snapState s).hdgOk = s.hdgOk := rfl
@[simp] theorem snapState_events : (snapState s).events = s.events := rfl
@[simp] theorem snapState_snapOut : (snapState s).snapOut = some (snapshot s) := rfl

/-! eraseDead -/
@[simp] theorem eraseDead_cfg : (eraseDead s).cfg = s.cfg := rfl
@[simp] theorem eraseDead_slots : (eraseDead s).slots = s.slots := rfl
@[simp] theorem eraseDead_rx : (eraseDead s).rx = s.rx := rfl
@[simp] theorem eraseDead_version : (eraseDead s).version = s.version := rfl
@[simp] theorem eraseDead_hwMonitor : (eraseDead s).hwMonitor = s.hwMonitor := rfl
@[simp] theorem eraseDead_rxStatus : (eraseDead s).rxStatus = s.rxStatus := rfl
@[simp] theorem eraseDead_rxStatusEvent : (eraseDead s).rxStatusEvent = s.rxStatusEvent := rfl
@[simp] theorem eraseDead_time : (eraseDead s).time = s.time := rfl
@[simp] theorem eraseDead_bestPos : (eraseDead s).bestPos = s.bestPos := rfl
@[simp] theorem eraseDead_heading2 : (eraseDead s).heading2 = s.heading2 := rfl
@[simp] theorem eraseDead_dualHeading : (eraseDead s).dualHeading = s.dualHeading := rfl
@[simp] theorem eraseDead_hdgLast : (eraseDead s).hdgLast = s.hdgLast := rfl
@[simp] theorem eraseDead_frStage : (eraseDead s).frStage = s.frStage := rfl
@[simp] theorem eraseDead_crcAcc : (eraseDead s).crcAcc = 0#32 := rfl
@[simp] theorem eraseDead_fb : (eraseDead s).fb = [] := rfl
@[simp] theorem eraseDead_fbLen : (eraseDead s).fbLen = 0 := rfl
@[simp] theorem eraseDead_rxCrc : (eraseDead s).rxCrc = 0#32 := rfl
@[simp] theorem eraseDead_consumed : (eraseDead s).consumed = 0 := rfl
@[simp] theorem eraseDead_pollPhase : (eraseDead s).pollPhase = s.pollPhase := rfl
@[simp] theorem eraseDead_fresh : (eraseDead s).fresh = s.fresh := rfl
@[simp] theorem eraseDead_valid : (eraseDead s).valid = s.valid := rfl
@[simp] theorem eraseDead_jamming : (eraseDead s).jamming = s.jamming := rfl
@[simp] theorem eraseDead_spoofing : (eraseDead s).spoofing = s.spoofing := rfl
@[simp] theorem eraseDead_reason : (eraseDead s).reason = s.reason := rfl
@[simp] theorem eraseDead_bestOk : (eraseDead s).bestOk = s.bestOk := rfl
@[simp] theorem eraseDead_hdgOk : (eraseDead s).hdgOk = s.hdgOk := rfl
@[simp] theorem eraseDead_events : (eraseDead s).events = s.events := rfl
@[simp] theorem eraseDead_snapOut : (eraseDead s).snapOut = s.snapOut := rfl

/-! The holders a commit writes -/
theorem markFresh_hdgLast (k : Kind) : (markFresh k s).hdgLast =
    match k with
    | .heading2 => false
    | .dualHeading => true
    | _ => s.hdgLast := rfl

@[simp] theorem getFixed_setFixed_same (k : FixedKind) (v : Bytes) :
    getFixed k (setFixed k v s) = v := by cases k <;> rfl

theorem getFixed_setFixed_other (k j : FixedKind) (v : Bytes) (h : j ≠ k) :
    getFixed j (setFixed k v s) = getFixed j s := by
  cases j <;> cases k <;> first | rfl | exact absurd rfl h

@[simp] theorem getFixed_setCounted (j : FixedKind) (k : CountedKind) (v : CountedStore) :
    getFixed j (setCounted k v s) = getFixed j s := by cases k <;> cases j <;> rfl

@[simp] theorem getFixed_markFresh (j : FixedKind) (k : Kind) :
    getFixed j (markFresh k s) = getFixed j s := by cases j <;> rfl

@[simp] theorem getFixed_endAttempt (j : FixedKind) (r : AttemptResult) :
    getFixed j (endAttempt r s) = getFixed j s := by cases j <;> rfl

@[simp] theorem getCounted_setCounted_same (k : CountedKind) (v : CountedStore) :
    getCounted k (setCounted k v s) = v := by cases k <;> rfl

theorem getCounted_setCounted_other (k j : CountedKind) (v : CountedStore) (h : j ≠ k) :
    getCounted j (setCounted k v s) = getCounted j s := by
  cases j <;> cases k <;> first | rfl | exact absurd rfl h

@[simp] theorem getCounted_setFixed (j : CountedKind) (k : FixedKind) (v : Bytes) :
    getCounted j (setFixed k v s) = getCounted j s := by cases k <;> cases j <;> rfl

@[simp] theorem getCounted_markFresh (j : CountedKind) (k : Kind) :
    getCounted j (markFresh k s) = getCounted j s := by cases j <;> rfl

@[simp] theorem getCounted_endAttempt (j : CountedKind) (r : AttemptResult) :
    getCounted j (endAttempt r s) = getCounted j s := by cases j <;> rfl

@[simp] theorem getFixed_commitFixed_same (k : FixedKind) (v : Bytes) :
    getFixed k (commitFixed k v s) = v := by simp [commitFixed]

@[simp] theorem getCounted_commitCounted_same (k : CountedKind) (v : CountedStore) :
    getCounted k (commitCounted k v s) = v := by simp [commitCounted]

end Sys2Proof.Machine
end

