-- ==== Sys2Proof/Laws/Ops.lean ====
section
/-!
SUPPORT. Once for each shared operation, everything it can answer; and once for a step, the ways
it can answer a next state.
-/
namespace Sys2Proof.Machine

/-- An operation for the idle block answers a next state only when the block is idle. -/
theorem whenIdle_next {op : String} {s t u : State} (h : whenIdle op s t = .next u) :
    s.pollPhase = .idle ∧ u = t := by
  unfold whenIdle isIdle at h
  split at h
  · next hi => exact ⟨by simpa using hi, by cases h; rfl⟩
  · cases h

theorem whenIdle_idle {op : String} {s t : State} (h : s.pollPhase = .idle) :
    whenIdle op s t = .next t := by simp [whenIdle, isIdle, h]

theorem whenIdle_busy {op : String} {s t : State} (h : s.pollPhase ≠ .idle) :
    whenIdle op s t = .refused (.pollRunning op) := by simp [whenIdle, isIdle, h]

theorem whenIdle_no_fault {op : String} {s t : State} {f : Fault} :
    whenIdle op s t ≠ .fault f := by
  unfold whenIdle; split <;> simp

/-- What a store answers. -/
theorem store_next {a : Nat} {v : Bytes} {g : Stage} {s t : State} (h : store a v g s = .next t) :
    a = s.fbLen ∧ a + v.length ≤ fbCapacity ∧
      t = { s with fb := Memory.writeBytes s.fb a v, fbLen := a + v.length,
                   crcAcc := crcFold s.crcAcc v, frStage := g } := by
  unfold store at h
  split at h
  · cases h
  · next ha =>
    split at h
    · cases h
    · next hc => exact ⟨by simpa using ha, by omega, by cases h; rfl⟩

theorem store_ok {a : Nat} {v : Bytes} {g : Stage} {s : State} (ha : s.fbLen = a)
    (hc : a + v.length ≤ fbCapacity) :
    store a v g s = .next { s with fb := Memory.writeBytes s.fb a v, fbLen := a + v.length,
                                   crcAcc := crcFold s.crcAcc v, frStage := g } := by
  unfold store
  rw [if_neg (by simp [ha]), if_neg (by omega)]
  rfl

/-- What a stage's read answers: a short read raises and pops nothing, otherwise the stage body
runs on the bytes popped (R63). -/
theorem readThen_cases (stage n : Nat) (s : State) (k : Bytes → State → Result) :
    (s.rx.length < n ∧ readThen stage n s k = .next (raise .shortRead stage s)) ∨
    (n ≤ s.rx.length ∧ readThen stage n s k = k (s.rx.take n) (rxPop n s)) := by
  unfold readThen rxAvail
  split
  · next h => exact .inl ⟨h, rfl⟩
  · next h => exact .inr ⟨by omega, rfl⟩

/-- What a one-byte stage's comparison answers (R152 to R155). -/
theorem matchByte_cases (want : Byte) (e : ErrKind) (stage a : Nat) (g : Stage) (b : Bytes)
    (s : State) :
    (b ≠ [want] ∧ matchByte want e stage a g b s = .next (raise e stage s)) ∨
    (b = [want] ∧ matchByte want e stage a g b s = store a [want] g s) := by
  unfold matchByte
  split
  · next h => exact .inl ⟨h, rfl⟩
  · next h =>
    obtain rfl : b = [want] := by simpa using h
    exact .inr ⟨rfl, rfl⟩

/-- What a fixed-size decode does (R192, R191): it raises and changes no record, or commits. -/
theorem decFixed_cases (k : FixedKind) (p : Bytes) (s : State) :
    (p.length ≠ fixedSize s.cfg k ∧ decFixed k p s = raise .sizeMismatch 9 s) ∨
    (p.length = fixedSize s.cfg k ∧
      decFixed k p s = endAttempt (.ok (fixedToKind k)) (commitFixed k p s)) := by
  unfold decFixed
  split
  · next h => exact .inl ⟨h, rfl⟩
  · next h => exact .inr ⟨by simpa using h, rfl⟩

/-! What a count-prefixed decode stores (R194, R195): the payload's elements, then the old ones. -/
@[simp] theorem storeElems_count (elem n : Nat) (p : Bytes) (old : CountedStore) :
    (storeElems elem n p old).count = n := rfl

theorem storeElems_below (elem n : Nat) (p : Bytes) (old : CountedStore) {i : Nat} (h : i < n) :
    (storeElems elem n p old).elems[i]? = some (slice p (4 + elem * i) elem) := by
  simp [storeElems, List.getElem?_append, h, payloadElem, countLen]

theorem storeElems_beyond (elem n : Nat) (p : Bytes) (old : CountedStore) {i : Nat} (h : n ≤ i) :
    (storeElems elem n p old).elems[i]? = old.elems[i]? := by
  simp [storeElems, List.getElem?_append, h, Nat.not_lt.mpr h]

/-- A commit of a count-prefixed kind is read back whole. -/
@[simp] theorem getCounted_endAttempt_commitCounted (r : AttemptResult) (k : CountedKind)
    (v : CountedStore) (s : State) : getCounted k (endAttempt r (commitCounted k v s)) = v := by
  cases k <;> rfl

/-- A commit of a fixed-size kind is read back whole (R203). -/
@[simp] theorem getFixed_endAttempt_commitFixed (r : AttemptResult) (k : FixedKind) (v : Bytes)
    (s : State) : getFixed k (endAttempt r (commitFixed k v s)) = v := by
  cases k <;> rfl

/-- What a count-prefixed decode does (R193, R191). -/
theorem decCounted_cases (k : CountedKind) (p : Bytes) (s : State) :
    (∃ e, decCounted k p s = raise e 9 s) ∨
    (4 ≤ p.length ∧ payloadCount p ≤ countedCap s.cfg k ∧
      p.length = 4 + payloadCount p * countedElem k ∧
      decCounted k p s = endAttempt (.ok (countedToKind k))
        (commitCounted k (storeElems (countedElem k) (payloadCount p) p (getCounted k s)) s)) := by
  unfold decCounted countLen
  split
  · exact .inl ⟨_, rfl⟩
  · split
    · exact .inl ⟨_, rfl⟩
    · split
      · exact .inl ⟨_, rfl⟩
      · next h1 h2 h3 => exact .inr ⟨by omega, by omega, by simpa using h3, rfl⟩

/-- A step runs only under a well-formed parameter set, and is then the turn. -/
theorem step_next {s t : State} (h : step s = .next t) : s.cfg.wf = true ∧ turn s = .next t := by
  unfold step at h
  split at h
  · next hc => exact ⟨hc, h⟩
  · cases h

theorem step_wf {s : State} (h : s.cfg.wf = true) : step s = turn s := by simp [step, h]

/-- A step with nothing from outside is the block's turn. -/
theorem turn_quiet {s : State} (h : s.slots = []) : turn s = blockTurn s := by
  simp [turn, h]

/-- What a turn is. -/
theorem turn_cases (s : State) :
    (s.slots = [] ∧ turn s = blockTurn s) ∨
    (∃ sl t, s.slots = sl :: t ∧ turn s = slotTurn sl { s with slots := t }) := by
  unfold turn
  split
  · next h => exact .inl ⟨h, rfl⟩
  · next sl t h => exact .inr ⟨sl, t, h, rfl⟩

end Sys2Proof.Machine
end

