-- ==== Sys2Proof/Laws/PerInstr.lean ====
section
/-!
SUPPORT. The form of every instruction's encoding (R90, R91, R280): a frame begins with the
marker and the header-length byte, carries its payload length in bytes 8 and 9, and has 32 bytes more
than its payload; a port operation is a port access, and no frame.
-/
namespace Sys2Proof.Laws.EncodedForm
open Sys2Proof Sys2Proof.Machine

/-- A frame's bytes have the form of R90 with a payload of `n` bytes. -/
def FrameForm (bytes : Bytes) (n : Nat) : Prop :=
  bytes.length = 32 + n ∧ frameLead <+: bytes ∧ leAt bytes 8 2 = n

/-- The payload of a frame instruction; none for an operation at the ports. -/
def payloadOf (i : Instr) : Option Bytes :=
  match i with
  | .version _ p => some p
  | .hwMonitor _ p => some p
  | .rxStatus _ p => some p
  | .rxStatusEvent _ p => some p
  | .time _ p => some p
  | .bestPos _ p => some p
  | .heading2 _ p => some p
  | .dualHeading _ p => some p
  | .untracked _ _ p => some p
  | .nop => none
  | .reset => none
  | .poll => none
  | .stop => none
  | .snap => none
  | .push _ => none

/-- The form of an instruction's encoding under every parameter set it is well-formed for. -/
def Statement (i : Instr) : Prop :=
  ∀ c : Config, i.wf c = true →
    match payloadOf i with
    | some p => ∃ bytes, encode c i = .frame bytes ∧ FrameForm bytes p.length
    | none => ∃ a, encode c i = .port a

@[simp] theorem headerRest_length (id : U16) (h : Header) (n : Nat) :
    (headerRest id h n).length = 24 := by simp [headerRest]

theorem frameBody_length (id : U16) (h : Header) (p : Bytes) :
    (frameBody id h p).length = 28 + p.length := by
  simp only [frameBody, List.length_append, headerRest_length, frameLead, List.length_cons,
    List.length_nil]

theorem frameBytes_form (id : U16) (h : Header) (p : Bytes) (hp : p.length ≤ maxPayload) :
    FrameForm (frameBytes id h p) p.length := by
  refine ⟨?_, ?_, ?_⟩
  · simp only [frameBytes, List.length_append, frameBody_length, le32, leBytes_length]; omega
  · exact ⟨headerRest id h p.length ++ p ++ le32 (crc32 (frameBody id h p)), by
      simp [frameBytes, frameBody]⟩
  · have h2 : leAt (frameBytes id h p) 8 2 = leNat (leBytes 2 p.length) := by
      simp [leAt, slice, frameBytes, frameBody, frameLead, headerRest, leBytes]
    rw [h2, leNat_leBytes]
    have : maxPayload = 65535 := rfl
    exact Nat.mod_eq_of_lt (by omega)

theorem frame_statement (id : U16) (h : Header) (p : Bytes)
    (hp : payloadFits p = true) :
    ∃ bytes, Wire.frame (frameBytes id h p) = .frame bytes ∧ FrameForm bytes p.length :=
  ⟨_, rfl, frameBytes_form id h p (by simpa [payloadFits] using hp)⟩

theorem version (h : Header) (p : Bytes) : Statement (.version h p) :=
  fun c hw => frame_statement c.msgIdVersion h p hw
theorem hwMonitor (h : Header) (p : Bytes) : Statement (.hwMonitor h p) :=
  fun c hw => frame_statement c.msgIdHwMonitor h p hw
theorem rxStatus (h : Header) (p : Bytes) : Statement (.rxStatus h p) :=
  fun c hw => frame_statement c.msgIdRxStatus h p hw
theorem rxStatusEvent (h : Header) (p : Bytes) : Statement (.rxStatusEvent h p) :=
  fun c hw => frame_statement c.msgIdRxStatusEvent h p hw
theorem time (h : Header) (p : Bytes) : Statement (.time h p) :=
  fun c hw => frame_statement c.msgIdTime h p hw
theorem bestPos (h : Header) (p : Bytes) : Statement (.bestPos h p) :=
  fun c hw => frame_statement c.msgIdBestPos h p hw
theorem heading2 (h : Header) (p : Bytes) : Statement (.heading2 h p) :=
  fun c hw => frame_statement c.msgIdHeading2 h p hw
theorem dualHeading (h : Header) (p : Bytes) : Statement (.dualHeading h p) :=
  fun c hw => frame_statement c.msgIdDualHeading h p hw
theorem untracked (id : U16) (h : Header) (p : Bytes) : Statement (.untracked id h p) :=
  fun _ hw => frame_statement id h p (by
    simp only [Instr.wf, Bool.and_eq_true] at hw; exact hw.2)
theorem nop : Statement .nop := fun _ _ => ⟨_, rfl⟩
theorem reset : Statement .reset := fun _ _ => ⟨_, rfl⟩
theorem poll : Statement .poll := fun _ _ => ⟨_, rfl⟩
theorem stop : Statement .stop := fun _ _ => ⟨_, rfl⟩
theorem snap : Statement .snap := fun _ _ => ⟨_, rfl⟩
theorem push (b : Byte) : Statement (.push b) := fun _ _ => ⟨_, rfl⟩

end Sys2Proof.Laws.EncodedForm
end

