-- ==== Sys2Proof/Laws/Step.lean ====
section
/-!
SUPPORT. What a step can do, said once: the ways a frame instruction, a stage of the Frame
Reader, the block's turn and a turn of the machine can answer a next state. Proofs about every step
take their cases from here and unfold no operation.
-/
namespace Sys2Proof.Machine

/-- What the instruction of an accepted frame does (R190): it raises, it ends untracked, or it commits
a payload that its kind's check accepts. -/
inductive FrameMove (body : Bytes) (s : State) : State → Prop where
  | raised (e : ErrKind) : FrameMove body s (raise e 9 s)
  | untracked : FrameMove body s (endAttempt (.untracked (frameId body)) s)
  | fixed (k : FixedKind) (hid : frameId body = kindMsgId s.cfg (fixedToKind k))
      (hlen : (framePayload body).length = fixedSize s.cfg k) :
      FrameMove body s (endAttempt (.ok (fixedToKind k)) (commitFixed k (framePayload body) s))
  | counted (k : CountedKind) (hid : frameId body = kindMsgId s.cfg (countedToKind k))
      (hcap : payloadCount (framePayload body) ≤ countedCap s.cfg k)
      (hlen : (framePayload body).length =
        4 + payloadCount (framePayload body) * countedElem k) :
      FrameMove body s (endAttempt (.ok (countedToKind k)) (commitCounted k
        (storeElems (countedElem k) (payloadCount (framePayload body)) (framePayload body)
          (getCounted k s)) s))

/-- What every frame instruction leaves unchanged, and where it leaves the attempt. -/
theorem FrameMove.keeps {body : Bytes} {s t : State} (h : FrameMove body s t) :
    t.cfg = s.cfg ∧ t.slots = s.slots ∧ t.rx = s.rx ∧ t.fb = s.fb ∧ t.frStage = .idle ∧
      t.pollPhase = .guard ∧ t.valid = s.valid ∧ t.jamming = s.jamming ∧
      t.spoofing = s.spoofing := by
  cases h with
  | raised e => simp [raise, endAttempt]
  | untracked => simp [endAttempt]
  | fixed k _ _ => cases k <;> simp [endAttempt, commitFixed, setFixed, markFresh]
  | counted k _ _ _ => cases k <;> simp [endAttempt, commitCounted, setCounted, markFresh]

theorem frameMove_fixed {body : Bytes} {s : State} (k : FixedKind)
    (hid : frameId body = kindMsgId s.cfg (fixedToKind k)) :
    FrameMove body s (decFixed k (framePayload body) s) := by
  rcases decFixed_cases k (framePayload body) s with ⟨_, h⟩ | ⟨hl, h⟩
  · rw [h]; exact .raised _
  · rw [h]; exact .fixed k hid hl

theorem frameMove_counted {body : Bytes} {s : State} (k : CountedKind)
    (hid : frameId body = kindMsgId s.cfg (countedToKind k)) :
    FrameMove body s (decCounted k (framePayload body) s) := by
  rcases decCounted_cases k (framePayload body) s with ⟨_, h⟩ | ⟨_, hc, hl, h⟩
  · rw [h]; exact .raised _
  · rw [h]; exact .counted k hid hc hl

/-- A frame instruction always answers a next state, and this is what it is. -/
theorem exec_frameInstr (s : State) (body : Bytes) :
    ∃ t, exec (frameInstr s.cfg body) s = .next t ∧ FrameMove body s t := by
  unfold frameInstr selectInstr
  split
  · next h => exact ⟨_, rfl, frameMove_counted .version h⟩
  split
  · next h => exact ⟨_, rfl, frameMove_counted .hwMonitor h⟩
  split
  · next h => exact ⟨_, rfl, frameMove_fixed .rxStatus h⟩
  split
  · next h => exact ⟨_, rfl, frameMove_fixed .rxStatusEvent h⟩
  split
  · next h => exact ⟨_, rfl, frameMove_fixed .time h⟩
  split
  · next h => exact ⟨_, rfl, frameMove_fixed .bestPos h⟩
  split
  · next h => exact ⟨_, rfl, frameMove_fixed .heading2 h⟩
  split
  · next h => exact ⟨_, rfl, frameMove_fixed .dualHeading h⟩
  · exact ⟨_, rfl, .untracked⟩

/-- The one-byte stages: the stage, the byte it wants, the address it stores it at, the next stage
(R152 to R155). -/
inductive ByteStage : Stage → Byte → Nat → Stage → Prop where
  | sync1 : ByteStage .sync1 Sys2Proof.sync1 0 .sync2
  | sync2 : ByteStage .sync2 Sys2Proof.sync2 1 .sync3
  | sync3 : ByteStage .sync3 Sys2Proof.sync3 2 .hlen
  | hlen : ByteStage .hlen hdrLenConst 3 .hdr

/-- The state after a stage has popped `v` and stored it at `fb_len`. -/
def stored (v : Bytes) (g : Stage) (s : State) : State :=
  { s with rx := s.rx.drop v.length, consumed := s.consumed + v.length,
           fb := Memory.writeBytes s.fb s.fbLen v, fbLen := s.fbLen + v.length,
           crcAcc := crcFold s.crcAcc v, frStage := g }

/-- What one step of a frame attempt does (R151 to R161). -/
inductive AttemptMove (s : State) : State → Prop where
  | noFrame (hg : s.frStage = .idle) (hrx : s.rx = []) :
      AttemptMove s { s with frStage := .idle, pollPhase := .guard }
  | start (hg : s.frStage = .idle) (hrx : s.rx ≠ []) :
      AttemptMove s { s with crcAcc := 0#32, fbLen := 0, frStage := .sync1, consumed := 0 }
  | failed (hg : s.frStage ≠ .idle) (e : ErrKind) (stage n : Nat) :
      AttemptMove s (raise e stage (rxPop n s))
  | byte {g g' : Stage} {want : Byte} {a : Nat} (hb : ByteStage g want a g') (hg : s.frStage = g)
      (ha : s.fbLen = a) (hrx : s.rx.take 1 = [want]) : AttemptMove s (stored [want] g' s)
  | header {h : Bytes} (hg : s.frStage = .hdr) (ha : s.fbLen = 4) (hrx : h = s.rx.take 24)
      (hl : h.length = 24) : AttemptMove s (stored h .pay s)
  | payload {l p : Bytes} (hg : s.frStage = .pay) (ha : s.fbLen = 28)
      (hn : fbRead 8 2 s = some l) (hrx : p = s.rx.take (leNat l)) (hl : p.length = leNat l)
      (hc : 28 + p.length ≤ fbCapacity) : AttemptMove s (stored p .crc s)
  | trailer {t : Bytes} (hg : s.frStage = .crc) (hrx : t = s.rx.take 4) (hl : t.length = 4) :
      AttemptMove s { s with rx := s.rx.drop 4, consumed := s.consumed + 4,
                             rxCrc := BitVec.ofNat 32 (leNat t), frStage := .chk }
  | frame {body : Bytes} {t : State} (hg : s.frStage = .chk) (hc : s.crcAcc = s.rxCrc)
      (hf : fetchFrame s = some body) (hm : FrameMove body s t) : AttemptMove s t

/-- What every step of an attempt leaves unchanged. -/
theorem AttemptMove.keeps {s t : State} (h : AttemptMove s t) :
    t.cfg = s.cfg ∧ t.slots = s.slots ∧ (∃ n, t.rx = s.rx.drop n) ∧ t.valid = s.valid ∧
      t.jamming = s.jamming ∧ t.spoofing = s.spoofing ∧
      (t.frStage = .idle ∧ t.pollPhase = .guard ∨ t.pollPhase = s.pollPhase) := by
  cases h with
  | noFrame => exact ⟨rfl, rfl, ⟨0, rfl⟩, rfl, rfl, rfl, .inl ⟨rfl, rfl⟩⟩
  | failed _ _ _ n => exact ⟨rfl, rfl, ⟨n, rfl⟩, rfl, rfl, rfl, .inl ⟨rfl, rfl⟩⟩
  | start => exact ⟨rfl, rfl, ⟨0, rfl⟩, rfl, rfl, rfl, .inr rfl⟩
  | frame _ _ _ hm =>
    obtain ⟨h1, h2, h3, _, h5, h6, h7, h8, h9⟩ := hm.keeps
    exact ⟨h1, h2, ⟨0, h3⟩, h7, h8, h9, .inl ⟨h5, h6⟩⟩
  | _ => exact ⟨rfl, rfl, ⟨_, rfl⟩, rfl, rfl, rfl, .inr rfl⟩

theorem rxPop_zero (s : State) : rxPop 0 s = s := rfl

theorem store_stored {a n : Nat} {v : Bytes} {g : Stage} {s t : State} (hn : v.length = n)
    (h : store a v g (rxPop n s) = .next t) :
    s.fbLen = a ∧ a + v.length ≤ fbCapacity ∧ t = stored v g s := by
  subst hn
  obtain ⟨ha, hc, rfl⟩ := store_next h
  subst ha
  exact ⟨rfl, hc, rfl⟩

theorem matchByte_move {s t : State} {want : Byte} {e : ErrKind} {stage a : Nat} {g g' : Stage}
    (hb : ByteStage g want a g') (hg : s.frStage = g)
    (h : matchByte want e stage a g' (s.rx.take 1) (rxPop 1 s) = .next t) : AttemptMove s t := by
  have hne : s.frStage ≠ .idle := by rw [hg]; cases hb <;> simp
  rcases matchByte_cases want e stage a g' (s.rx.take 1) (rxPop 1 s) with ⟨_, h'⟩ | ⟨hw, h'⟩
  · rw [h'] at h; cases h; exact .failed hne e stage 1
  · rw [h'] at h
    obtain ⟨ha, _, rfl⟩ := store_stored rfl h
    exact .byte hb hg ha hw

theorem readThen_move {s t : State} {stage n : Nat} {k : Bytes → State → Result}
    (hg : s.frStage ≠ .idle) (h : readThen stage n s k = .next t)
    (hk : n ≤ s.rx.length → k (s.rx.take n) (rxPop n s) = .next t → AttemptMove s t) :
    AttemptMove s t := by
  rcases readThen_cases stage n s k with ⟨_, h'⟩ | ⟨hn, h'⟩
  · rw [h'] at h; cases h; exact .failed hg .shortRead stage 0
  · exact hk hn (h' ▸ h)

/-- Everything one step of a frame attempt can do. -/
theorem attemptStep_next {s t : State} (h : attemptStep s = .next t) : AttemptMove s t := by
  unfold attemptStep at h
  split at h
  · next hg =>
    cases h
    unfold frStart rxAvail
    split
    · next hr => exact .noFrame hg (List.length_eq_zero_iff.mp hr)
    · next hr => exact .start hg (fun hn => hr (by simp [hn]))
  · next hg =>
    unfold stageSync1 at h
    split at h
    · cases h
    · exact matchByte_move .sync1 hg h
  · next hg => exact readThen_move (by simp [hg]) h (fun _ h => matchByte_move .sync2 hg h)
  · next hg => exact readThen_move (by simp [hg]) h (fun _ h => matchByte_move .sync3 hg h)
  · next hg => exact readThen_move (by simp [hg]) h (fun _ h => matchByte_move .hlen hg h)
  · next hg =>
    refine readThen_move (by simp [hg]) h (fun hn h => ?_)
    have hl : (s.rx.take hdrRestLen).length = 24 := by
      rw [List.length_take]; exact Nat.min_eq_left hn
    obtain ⟨ha, _, rfl⟩ := store_stored hl h
    exact .header hg ha rfl hl
  · next hg =>
    unfold stagePay at h
    split at h
    · cases h
    · next l hl =>
      refine readThen_move (by simp [hg]) h (fun hn h => ?_)
      have hl' : (s.rx.take (leNat l)).length = leNat l := by
        rw [List.length_take]; exact Nat.min_eq_left hn
      obtain ⟨ha, hc, rfl⟩ := store_stored hl' h
      exact .payload hg ha hl rfl hl' hc
  · next hg =>
    refine readThen_move (by simp [hg]) h (fun hn h => ?_)
    cases h
    exact .trailer hg rfl (by rw [List.length_take]; exact Nat.min_eq_left hn)
  · next hg =>
    unfold stageChk at h
    split at h
    · cases h; exact .failed (by simp [hg]) .checksumMismatch 8 0
    · next hc =>
      split at h
      · cases h
      · next body hf =>
        obtain ⟨u, hu, hm⟩ := exec_frameInstr s body
        rw [hu] at h; cases h
        exact .frame hg (by simpa using hc) hf hm

/-- What one turn does, to the state `s` with the turn's slot already taken off. -/
inductive TurnMove (sl : Option Slot) (s : State) : State → Prop where
  | blockIdle (hp : s.pollPhase = .idle) : TurnMove sl s s
  | guardMore (hp : s.pollPhase = .guard) (hrx : s.rx ≠ []) :
      TurnMove sl s { s with pollPhase := .attempt }
  | guardDone (hp : s.pollPhase = .guard) (hrx : s.rx = []) :
      TurnMove sl s { s with pollPhase := .aggregate }
  | attempt {t : State} (hp : s.pollPhase = .attempt) (hm : AttemptMove s t) : TurnMove sl s t
  | aggregate (hp : s.pollPhase = .aggregate) : TurnMove sl s (aggregate s)
  | nop (hsl : sl = some (.port (.command 0#2))) : TurnMove sl s s
  | reset (hsl : sl = some (.port (.command 1#2))) (hp : s.pollPhase = .idle) :
      TurnMove sl s (resetState s)
  | poll (hsl : sl = some (.port (.command 2#2))) (hp : s.pollPhase = .idle) :
      TurnMove sl s (pollStart s)
  | stop (hsl : sl = some (.port (.command 3#2))) (hp : s.pollPhase = .idle) : TurnMove sl s s
  | snap (hsl : sl = some (.port .snapshotRead)) (hp : s.pollPhase = .idle) :
      TurnMove sl s (snapState s)
  | push (b : Byte) (hsl : sl = some (.port (.receiveWrite b))) : TurnMove sl s (rxPush b s)
  | hostDrain (n : Nat) (hsl : sl = some (.hostDrain n)) (hp : s.pollPhase = .idle) :
      TurnMove sl s { s with rx := s.rx.drop n }

/-- Everything the block's turn can do. -/
theorem blockTurn_next {sl : Option Slot} {s t : State} (h : blockTurn s = .next t) :
    TurnMove sl s t := by
  unfold blockTurn at h
  split at h
  · next hp => cases h; exact .blockIdle hp
  · next hp =>
    cases h
    unfold drainGuard rxAvail
    split
    · next hr => exact .guardMore hp (fun hn => by simp [hn] at hr)
    · next hr => exact .guardDone hp (List.length_eq_zero_iff.mp (by omega))
  · next hp => exact .attempt hp (attemptStep_next h)
  · next hp => cases h; exact .aggregate hp

/-- Everything a step can do when it answers a next state. -/
theorem step_next_cases {s t : State} (h : step s = .next t) :
    s.cfg.wf = true ∧
    ((s.slots = [] ∧ TurnMove none s t) ∨
     ∃ sl l, s.slots = sl :: l ∧ TurnMove (some sl) { s with slots := l } t) := by
  obtain ⟨hc, h⟩ := step_next h
  refine ⟨hc, ?_⟩
  rcases turn_cases s with ⟨hs, ht⟩ | ⟨sl, l, hs, ht⟩
  · exact .inl ⟨hs, blockTurn_next (ht ▸ h)⟩
  · refine .inr ⟨sl, l, hs, ?_⟩
    rw [ht] at h
    cases sl with
    | quiet => exact blockTurn_next h
    | hostDrain n => obtain ⟨hp, rfl⟩ := whenIdle_next h; exact .hostDrain n rfl hp
    | port a =>
      cases a with
      | snapshotRead => obtain ⟨hp, rfl⟩ := whenIdle_next h; exact .snap rfl hp
      | receiveWrite b => cases h; exact .push b rfl
      | command code =>
        simp only [slotTurn, decodePort] at h
        by_cases h0 : code = 0#2
        · subst h0; cases h; exact .nop rfl
        by_cases h1 : code = 1#2
        · subst h1; obtain ⟨hp, rfl⟩ := whenIdle_next h; exact .reset rfl hp
        by_cases h2 : code = 2#2
        · subst h2; obtain ⟨hp, rfl⟩ := whenIdle_next h; exact .poll rfl hp
        have h3 : code = 3#2 := by bv_omega
        subst h3; obtain ⟨hp, rfl⟩ := whenIdle_next h; exact .stop rfl hp

end Sys2Proof.Machine
end

