-- ==== Sys2Proof/Machine/Layout.lean ====
section
/-!
DEFINITION. The field tables of the frame header (R91) and of the payload records (R110 to
R117), as data for a reader of the holders. No step uses them: the block reads only the fields of
Operands.lean, which the parameters address. Rows the spec marks "gk", and every offset after the
first of them in a record, hold for P0 only (PRESUMED, log 18). A VERSION component record has no
inner layout: it is 96 opaque bytes (R110, U9).
-/
namespace Sys2Proof.Machine

/-- One field of a record: its name, its byte offset, its width in bytes. -/
structure Field where
  name : String
  off : Nat
  width : Nat
deriving DecidableEq, Repr

/-- The bytes of a field in a record (R94). -/
def fieldBytes (rec : Bytes) (f : Field) : Bytes := slice rec f.off f.width

/-- The unsigned little-endian value of a field (R69, R94). -/
def fieldValue (rec : Bytes) (f : Field) : Nat := leAt rec f.off f.width

/-- The header rest, at frame offsets (R91). -/
def headerLayout : List Field :=
  [⟨"message identifier", 4, 2⟩, ⟨"message type", 6, 1⟩, ⟨"port", 7, 1⟩, ⟨"payload length", 8, 2⟩,
   ⟨"sequence", 10, 2⟩, ⟨"idle time", 12, 1⟩, ⟨"time status", 13, 1⟩, ⟨"GPS week", 14, 2⟩,
   ⟨"GPS time of week", 16, 4⟩, ⟨"receiver status", 20, 4⟩, ⟨"reserved", 24, 2⟩,
   ⟨"firmware build", 26, 2⟩]

/-- One reading of a hardware-monitor record (R111). -/
def hwReadingLayout : List Field :=
  [⟨"value", 0, 4⟩, ⟨"boundary classification", 4, 1⟩, ⟨"reading type", 5, 1⟩, ⟨"reserved", 6, 2⟩]

/-- The four fields of word group `g` of a receiver-status record (R112). -/
def wordGroupLayout (g : Nat) : List Field :=
  [⟨"word", 8 + 16 * g, 4⟩, ⟨"pri", 12 + 16 * g, 4⟩, ⟨"set", 16 + 16 * g, 4⟩,
   ⟨"clr", 20 + 16 * g, 4⟩]

/-- The receiver-status record: 22 fields (R112). -/
def rxStatusLayout : List Field :=
  [⟨"error", 0, 4⟩, ⟨"num_stats", 4, 4⟩] ++ wordGroupLayout 0 ++ wordGroupLayout 1 ++
    wordGroupLayout 2 ++ wordGroupLayout 3 ++ wordGroupLayout 4

/-- The status-change event record (R113, P0). -/
def rxStatusEventLayout : List Field :=
  [⟨"word identifier", 0, 4⟩, ⟨"bit position mask", 4, 4⟩, ⟨"event type", 8, 4⟩,
   ⟨"description", 12, 32⟩]

/-- The time record (R114, P0). -/
def timeLayout : List Field :=
  [⟨"clock-model status", 0, 4⟩, ⟨"receiver clock offset", 4, 8⟩,
   ⟨"clock offset standard deviation", 12, 8⟩, ⟨"UTC offset", 20, 8⟩, ⟨"UTC year", 28, 4⟩,
   ⟨"UTC month", 32, 1⟩, ⟨"UTC day", 33, 1⟩, ⟨"UTC hour", 34, 1⟩, ⟨"UTC minute", 35, 1⟩,
   ⟨"UTC milliseconds", 36, 4⟩, ⟨"UTC status", 40, 4⟩]

/-- The best-position record (R115, P0). -/
def bestPosLayout : List Field :=
  [⟨"solution status", 0, 4⟩, ⟨"position type", 4, 4⟩, ⟨"latitude", 8, 8⟩, ⟨"longitude", 16, 8⟩,
   ⟨"altitude", 24, 8⟩, ⟨"undulation", 32, 4⟩, ⟨"datum id", 36, 4⟩,
   ⟨"latitude standard deviation", 40, 4⟩, ⟨"longitude standard deviation", 44, 4⟩,
   ⟨"altitude standard deviation", 48, 4⟩, ⟨"base-station id", 52, 4⟩, ⟨"differential age", 56, 4⟩,
   ⟨"solution age", 60, 4⟩] ++
  [⟨"satellites tracked", 64, 1⟩, ⟨"satellites in solution", 65, 1⟩,
   ⟨"satellites in solution, single-frequency", 66, 1⟩,
   ⟨"satellites in solution, multi-frequency", 67, 1⟩, ⟨"reserved", 68, 1⟩,
   ⟨"extended status", 69, 1⟩, ⟨"signal mask 1", 70, 1⟩, ⟨"signal mask 2", 71, 1⟩]

/-- The first eight fields of both heading records (R116, R117, P0). -/
def headingLeadLayout : List Field :=
  [⟨"solution status", 0, 4⟩, ⟨"position type", 4, 4⟩, ⟨"baseline length", 8, 4⟩,
   ⟨"heading", 12, 4⟩, ⟨"pitch", 16, 4⟩, ⟨"reserved float", 20, 4⟩,
   ⟨"heading standard deviation", 24, 4⟩, ⟨"pitch standard deviation", 28, 4⟩]

/-- The eight 1-byte fields that close both heading records, from offset `o` (R116, R117, P0). -/
def headingTailLayout (o : Nat) : List Field :=
  [⟨"satellites tracked", o, 1⟩, ⟨"satellites in solution", o + 1, 1⟩,
   ⟨"satellites above mask", o + 2, 1⟩, ⟨"satellites multi-frequency", o + 3, 1⟩,
   ⟨"solution source", o + 4, 1⟩, ⟨"extended status", o + 5, 1⟩, ⟨"signal mask 1", o + 6, 1⟩,
   ⟨"signal mask 2", o + 7, 1⟩]

/-- The multi-rover heading record (R116, P0). -/
def heading2Layout : List Field :=
  headingLeadLayout ++ [⟨"rover station id", 32, 4⟩, ⟨"base station id", 36, 4⟩] ++
    headingTailLayout 40

/-- The dual-antenna heading record (R117, P0). -/
def dualHeadingLayout : List Field :=
  headingLeadLayout ++ [⟨"station id", 32, 4⟩] ++ headingTailLayout 36

/-- The layout of a fixed-size record (R112 to R117, P0 where those rules say so). -/
def fixedLayout (k : FixedKind) : List Field :=
  match k with
  | .rxStatus => rxStatusLayout
  | .rxStatusEvent => rxStatusEventLayout
  | .time => timeLayout
  | .bestPos => bestPosLayout
  | .heading2 => heading2Layout
  | .dualHeading => dualHeadingLayout

/-- The fields follow one another from `start` to `stop` without a gap: "densely packed" (R22, R71). -/
def packed : Nat → Nat → List Field → Bool
  | start, stop, [] => decide (start = stop)
  | start, stop, f :: t => decide (f.off = start) && packed (start + f.width) stop t

end Sys2Proof.Machine
end

