-- ==== Sys2Proof/Tests/Slice0.lean ====
section
/-!
SUPPORT. Tests on fixed values, and one witness for each statement that has hypotheses. The
expected values are the spec's: its dumps and trailer bytes (95_test_vectors 3.1), its vectors (V..),
and words written out from the encodings of 30_encoding and 44_host_operations.
-/
namespace Sys2Proof.Tests
set_option Elab.async false
open Sys2Proof Sys2Proof.Machine Sys2Proof.Safety

/-! ## Helpers -/

/-- A next state with a property. -/
def ran (r : Result) (p : State → Bool) : Bool :=
  match r with
  | .next t => p t
  | .fault _ => false
  | .refused _ => false

/-- The 28 bytes before the payload, with the shared header of 95_test_vectors 3.1: marker,
header-length byte, identifier, bytes 6 to 27. -/
def leadOf (i0 i1 l0 l1 : Byte) : Bytes :=
  [0xAA, 0x44, 0x12, 0x1C, i0, i1, 0x00, 0x20, l0, l1, 0x00, 0x00, 0x00, 0xB4, 0x8C, 0x09,
   0x78, 0xE0, 0x01, 0x00, 0x00, 0x00, 0x00, 0x00, 0x00, 0x00, 0x00, 0x00]

/-- A whole frame with that header. -/
def vec (i0 i1 l0 l1 : Byte) (payload trailer : Bytes) : Bytes :=
  leadOf i0 i1 l0 l1 ++ payload ++ trailer

/-- What that header holds: port 0x20, time status 0xB4, week 2444, 123000 ms. -/
def sharedHeader : Header :=
  { Header.zero with port := 0x20#8, timeStatus := 0xB4#8, week := 2444#16, ms := 123000#32 }

def zeros (n : Nat) : Bytes := List.replicate n 0x00

/-- `sol_status=0, pos_type=50` and `n` zero bytes. -/
def fixPayload (n : Nat) : Bytes := [0x00, 0x00, 0x00, 0x00, 0x32, 0x00, 0x00, 0x00] ++ zeros n

/-- A receiver-status record with these bytes 0 to 3 and 8 to 11, `num_stats=5`, else zero. -/
def statusRecord (e w : Bytes) : Bytes := e ++ [0x05, 0x00, 0x00, 0x00] ++ w ++ zeros 76

/-- The reset state where a POLL stands at the guard of DRAIN. -/
def busy : State := { State.reset with pollPhase := .guard }

/-- The reset state inside an attempt, at stage `g`, with `fb` holding `b` and `rx` holding `r`. -/
def inStage (g : Stage) (b r : Bytes) : State :=
  { State.reset with
    pollPhase := .attempt, frStage := g, fb := Memory.writeBytes [] 0 b, fbLen := b.length,
    crcAcc := crc32 b, consumed := b.length, rx := r }

/-- The 28 bytes before a payload of `n` bytes (n below 256), identifier 1, other header bytes 0. -/
def head28 (n : Byte) : Bytes := [0xAA, 0x44, 0x12, 0x1C, 0x01, 0x00, 0x00, 0x00, n] ++ zeros 19

/-! ## WellFormed and Config: an ill-formed term for each check -/

theorem test_wf_refuses_long_payload (c : Config) (h : Header) (p : Bytes)
    (hp : p.length = 65536) :
    Instr.wf c (.version h p) = false ∧ Instr.wf c (.hwMonitor h p) = false ∧
    Instr.wf c (.rxStatus h p) = false ∧ Instr.wf c (.rxStatusEvent h p) = false ∧
    Instr.wf c (.time h p) = false ∧ Instr.wf c (.bestPos h p) = false ∧
    Instr.wf c (.heading2 h p) = false ∧ Instr.wf c (.dualHeading h p) = false ∧
    Instr.wf c (.untracked 1#16 h p) = false := by
  simp [Instr.wf, payloadFits, hp, maxPayload]

theorem test_wf_refuses_tracked_identifier :
    Instr.wf Config.p0 (.untracked 42#16 Header.zero []) = false ∧
    Instr.wf Config.p0 (.untracked 2042#16 Header.zero []) = false ∧
    Instr.wf Config.p0 (.untracked 43#16 Header.zero []) = true := by decide

theorem test_config_refuses_equal_identifiers :
    { Config.p0 with msgIdTime := 42#16 }.idsDistinct = false ∧
    { Config.p0 with msgIdDualHeading := 37#16 }.wf = false := by decide

theorem test_config_refuses_other_widths :
    { Config.p0 with wSolStat := 3 }.widthsOk = false ∧
    { Config.p0 with wPosType := 0 }.widthsOk = false ∧
    { Config.p0 with wClockStat := 5 }.widthsOk = false ∧
    { Config.p0 with wUtcStat := 16 }.wf = false := by decide

theorem test_config_refuses_short_records :
    { Config.p0 with sizeBestPos := 3 }.sizesOk = false ∧
    { Config.p0 with sizeHeading2 := 7 }.sizesOk = false ∧
    { Config.p0 with sizeDualHeading := 7 }.sizesOk = false ∧
    { Config.p0 with sizeTime := 43 }.sizesOk = false ∧
    { Config.p0 with offSolStat := 45 }.sizesOk = false ∧
    { Config.p0 with offClockStat := 41 }.sizesOk = false ∧
    { Config.p0 with sizeBestPos := 4, sizeHeading2 := 8, sizeDualHeading := 8 }.sizesOk = true ∧
    Config.p0.wf = true := by decide

/-! ## Layouts: packed, and of the sizes of P0 (R91, R111 to R117) -/

theorem test_layouts_are_packed :
    packed 4 28 headerLayout = true ∧ packed 0 8 hwReadingLayout = true ∧
    packed 0 88 rxStatusLayout = true ∧ rxStatusLayout.length = 22 ∧
    packed 0 44 rxStatusEventLayout = true ∧ packed 0 44 timeLayout = true ∧
    packed 0 72 bestPosLayout = true ∧ packed 0 48 heading2Layout = true ∧
    packed 0 44 dualHeadingLayout = true := by decide

/-! ## Checksum vectors V10, V13, V14 -/

theorem test_crc_vectors :
    crc32 [0x31, 0x32, 0x33, 0x34, 0x35, 0x36, 0x37, 0x38, 0x39] = 0x2DFD2D88#32 ∧
    crc32 [0x31, 0x32, 0x33, 0x34, 0x35, 0x36, 0x37, 0x38, 0x39, 0x88, 0x2D, 0xFD, 0x2D] = 0#32 ∧
    crc32 [0x01, 0x02, 0x03] = 0xAAFD590F#32 ∧ crc32 [0x10, 0x20, 0x30] = 0xAF7BB77E#32 ∧
    crc32 [0x11, 0x22, 0x33] = 0x0586EE71#32 ∧
    crcStepByTable 0x77073096#32 0x02#8 = 0xF715506D#32 := by decide +kernel

/-! ## Decoding words written out from the spec -/

/-- F_V0. -/
theorem test_decode_version :
    decode Config.p0 (.frame (vec 0x25 0x00 0x04 0x00 (zeros 4) [0xF1, 0x59, 0xD5, 0x08])) =
      .ok (.version sharedHeader [0x00, 0x00, 0x00, 0x00]) := by decide +kernel

/-- F_HW1. -/
theorem test_decode_hwMonitor :
    decode Config.p0 (.frame (vec 0xC3 0x03 0x0C 0x00
      [0x01, 0x00, 0x00, 0x00, 0x00, 0x00, 0x1A, 0x42, 0x00, 0x01, 0x00, 0x00]
      [0x3F, 0xC3, 0xCA, 0x01])) =
      .ok (.hwMonitor sharedHeader
        [0x01, 0x00, 0x00, 0x00, 0x00, 0x00, 0x1A, 0x42, 0x00, 0x01, 0x00, 0x00]) := by
  decide +kernel

/-- The checksum of a string in two parts, so that the kernel evaluates a short fold at a time. -/
theorem crc32_parts {a b : Bytes} {u v : U32} (ha : crc32 a = u) (hb : crcFold u b = v) :
    crc32 (a ++ b) = v := by
  rw [← hb, ← ha]; simp [crc32, crcFold]

/-- F_RX0 before its trailer EA F9 2E 31: the instruction, and the checksum the trailer holds. -/
theorem test_decode_rxStatus :
    frameInstr Config.p0 (leadOf 0x5D 0x00 0x58 0x00 ++
      ([0x00, 0x00, 0x00, 0x00, 0x05, 0x00, 0x00, 0x00] ++ zeros 36) ++ zeros 44) =
      .rxStatus sharedHeader (statusRecord (zeros 4) (zeros 4)) ∧
    crc32 (leadOf 0x5D 0x00 0x58 0x00 ++
      ([0x00, 0x00, 0x00, 0x00, 0x05, 0x00, 0x00, 0x00] ++ zeros 36) ++ zeros 44) =
      0x312EF9EA#32 :=
  ⟨by decide +kernel, crc32_parts (crc32_parts (u := 0x6194D43D#32) (by decide +kernel)
    (v := 0x8BC0E465#32) (by decide +kernel)) (by decide +kernel)⟩

/-- F_RE. -/
theorem test_decode_rxStatusEvent :
    decode Config.p0 (.frame (vec 0x5E 0x00 0x2C 0x00 (zeros 44) [0xDD, 0xE1, 0xE9, 0x67])) =
      .ok (.rxStatusEvent sharedHeader (zeros 44)) := by decide +kernel

/-- F_TM. -/
theorem test_decode_time :
    decode Config.p0 (.frame (vec 0x65 0x00 0x2C 0x00 (zeros 40 ++ [0x01, 0x00, 0x00, 0x00])
      [0xA2, 0x42, 0xD9, 0x1B])) =
      .ok (.time sharedHeader (zeros 40 ++ [0x01, 0x00, 0x00, 0x00])) := by decide +kernel

/-- F_BP before its trailer 22 C0 F6 44 (V20 gives the checksum after the 28 header bytes), and F_BPr,
whose message-type byte alone differs (R92: the instruction is the same but for that field). -/
theorem test_decode_bestPos :
    frameInstr Config.p0 (leadOf 0x2A 0x00 0x48 0x00 ++ fixPayload 64) =
      .bestPos sharedHeader (fixPayload 64) ∧
    crc32 (leadOf 0x2A 0x00 0x48 0x00 ++ fixPayload 64) = 0x44F6C022#32 ∧
    frameInstr Config.p0 ((leadOf 0x2A 0x00 0x48 0x00 ++ fixPayload 64).set 6 0x80) =
      .bestPos { sharedHeader with msgType := 0x80#8 } (fixPayload 64) :=
  ⟨by decide +kernel, crc32_parts (u := 0x172B339D#32) (by decide +kernel) (by decide +kernel),
    by decide +kernel⟩

/-- F_H2 before its trailer 4D 8B 72 3C. -/
theorem test_decode_heading2 :
    frameInstr Config.p0 (leadOf 0x37 0x05 0x30 0x00 ++ fixPayload 40) =
      .heading2 sharedHeader (fixPayload 40) ∧
    crc32 (leadOf 0x37 0x05 0x30 0x00 ++ fixPayload 40) = 0x3C728B4D#32 :=
  ⟨by decide +kernel, crc32_parts (u := 0x9B584DAB#32) (by decide +kernel) (by decide +kernel)⟩

/-- F_DU. -/
theorem test_decode_dualHeading :
    decode Config.p0 (.frame (vec 0xFA 0x07 0x2C 0x00 (fixPayload 36)
      [0x35, 0xD8, 0xE1, 0x28])) = .ok (.dualHeading sharedHeader (fixPayload 36)) := by
  decide +kernel

/-- F_UN: identifier 43; and V30: F_UN with its last trailer byte changed is refused by name. -/
theorem test_decode_untracked :
    decode Config.p0 (.frame (vec 0x2B 0x00 0x08 0x00 (zeros 8) [0x62, 0xE2, 0x00, 0x0E])) =
      .ok (.untracked 43#16 sharedHeader (zeros 8)) ∧
    decode Config.p0 (.frame (vec 0x2B 0x00 0x08 0x00 (zeros 8) [0x62, 0xE2, 0x00, 0x0F])) =
      .error (.frameError .checksumMismatch 8) := by decide +kernel

/-- R280: the four codes, the two data ports. -/
theorem test_decode_port_accesses :
    decode Config.p0 (.port (.command 0b00#2)) = .ok .nop ∧
    decode Config.p0 (.port (.command 0b01#2)) = .ok .reset ∧
    decode Config.p0 (.port (.command 0b10#2)) = .ok .poll ∧
    decode Config.p0 (.port (.command 0b11#2)) = .ok .stop ∧
    decode Config.p0 (.port .snapshotRead) = .ok .snap ∧
    decode Config.p0 (.port (.receiveWrite 0xAA#8)) = .ok (.push 0xAA#8) := by decide

/-- Every refusal of the decoder by its name and stage (R290, R291 to R294). -/
theorem test_decode_refuses_by_name :
    decode Config.p0 (.frame []) = .error .noFrame ∧
    decode Config.p0 (.frame [0x44]) = .error (.frameError .frameSyncMiss 1) ∧
    decode Config.p0 (.frame [0xAA]) = .error (.frameError .shortRead 2) ∧
    decode Config.p0 (.frame [0xAA, 0x44, 0xAA]) = .error (.frameError .frameSyncMiss 3) ∧
    decode Config.p0 (.frame [0xAA, 0x44, 0x12, 0x1B]) = .error (.frameError .headerLenMismatch 4) ∧
    decode Config.p0 (.frame [0xAA, 0x44, 0x12, 0x1C]) = .error (.frameError .shortRead 5) ∧
    decode Config.p0 (.frame (head28 1)) = .error (.frameError .shortRead 6) ∧
    decode Config.p0 (.frame (head28 0)) = .error (.frameError .shortRead 7) ∧
    decode Config.p0 (.frame (head28 0 ++ [0xB0, 0x74, 0xFB, 0x90, 0x00])) =
      .error .trailingBytes := by decide +kernel

/-- The table's words: 963 = HWMONITOR, 43 untracked, command code 2, a byte that is no command code,
the snapshot read; and none. -/
theorem test_decode_table_words :
    decodeTableWord 16 963 = some (.hwMonitor Header.zero []) ∧
    decodeTableWord 16 43 = some (.untracked 43#16 Header.zero []) ∧
    decodeTableWord 8 2 = some .poll ∧ decodeTableWord 0 0 = some .snap ∧
    decodeTableWord 8 0xAA = some (.push 0xAA#8) ∧ decodeTableWord 8 256 = none := by decide +kernel

/-- The first step after reset runs the placed instruction: an empty HWMONITOR frame raises
SizeMismatch(9); POLL starts; SNAP answers; RESET leaves reset. -/
theorem test_step_runs_placed_word :
    ran (step (State.reset.withFetchWord 16 963)) (fun t =>
      decide (t.events = [.attempt 32 (.err .sizeMismatch 9)])) = true ∧
    ran (step (State.reset.withFetchWord 8 2)) (fun t => decide (t.pollPhase = .guard)) = true ∧
    ran (step (State.reset.withFetchWord 0 0)) (fun t => t.snapOut.isSome) = true ∧
    ran (step (State.reset.withFetchWord 8 1)) (fun t => decide (t = State.reset)) = true := by
  decide +kernel

/-! ## One step of each instruction -/

/-- V47 (count 0: nothing but the count and the fresh bit), V50 (count 9 above 8). -/
theorem test_version :
    ran (exec (.version Header.zero (zeros 4)) busy) (fun t =>
      decide (t.version = State.reset.version) && decide (t.fresh = 0x01#8)) = true ∧
    ran (exec (.version Header.zero ([0x09, 0x00, 0x00, 0x00] ++ zeros 864)) busy) (fun t =>
      decide (t.events = [.attempt 0 (.err .capacityExceeded 9)]) && decide (t.fresh = 0#8))
      = true := by decide +kernel

/-- F_V1: one component record of bytes 00 to 5F; the second keeps what it held. -/
theorem test_version_keeps_later_elements :
    ran (exec (.version Header.zero ([0x01, 0x00, 0x00, 0x00] ++
        (List.range 96).map (BitVec.ofNat 8 ·)))
        { busy with version := ⟨2, List.replicate 8 (List.replicate 96 0x77)⟩ }) (fun t =>
      decide (t.version.count = 1) &&
      decide (t.version.elems[0]? = some ((List.range 96).map (BitVec.ofNat 8 ·))) &&
      decide (t.version.elems[1]? = some (List.replicate 96 0x77))) = true := by decide +kernel

/-- F_HW1: the reading is stored. F_HW5: 5 bytes that declare 11 raise CapacityExceeded, since the
count is compared first. -/
theorem test_hwMonitor :
    ran (exec (.hwMonitor Header.zero
        [0x01, 0x00, 0x00, 0x00, 0x00, 0x00, 0x1A, 0x42, 0x00, 0x01, 0x00, 0x00]) busy) (fun t =>
      decide (t.hwMonitor.elems[0]? = some [0x00, 0x00, 0x1A, 0x42, 0x00, 0x01, 0x00, 0x00]) &&
      decide (t.fresh = 0x02#8)) = true ∧
    ran (exec (.hwMonitor Header.zero [0x0B, 0x00, 0x00, 0x00, 0x00]) busy) (fun t =>
      decide (t.events = [.attempt 0 (.err .capacityExceeded 9)])) = true := by decide +kernel

/-- V42. -/
theorem test_rxStatus :
    ran (exec (.rxStatus Header.zero (statusRecord (zeros 4) (zeros 4))) busy) (fun t =>
      decide (slice t.rxStatus 4 4 = [0x05, 0x00, 0x00, 0x00]) && decide (t.fresh = 0x04#8))
      = true := by decide +kernel

/-- V41. -/
theorem test_rxStatusEvent :
    ran (exec (.rxStatusEvent Header.zero (zeros 44)) busy) (fun t =>
      decide (t.fresh = 0x08#8) && decide (t.rxStatusEvent = zeros 44)) = true := by decide +kernel

/-- V40: clock status 0, UTC status 1. -/
theorem test_time :
    ran (exec (.time Header.zero (zeros 40 ++ [0x01, 0x00, 0x00, 0x00])) busy) (fun t =>
      timeValid t && decide (t.fresh = 0x10#8)) = true ∧ timeValid State.reset = false := by
  decide +kernel

/-- V43, and F_BP71: one byte short. -/
theorem test_bestPos :
    ran (exec (.bestPos Header.zero (fixPayload 64)) busy) (fun t =>
      decide (t.bestPos = fixPayload 64) && decide (t.fresh = 0x20#8)) = true ∧
    ran (exec (.bestPos Header.zero (fixPayload 63)) busy) (fun t =>
      decide (t.bestPos = zeros 72) && decide (t.events = [.attempt 0 (.err .sizeMismatch 9)]))
      = true := by decide +kernel

/-- V46, first half, after a DUALHEADING. -/
theorem test_heading2 :
    ran (exec (.heading2 Header.zero (fixPayload 40)) { busy with fresh := 0x80#8, hdgLast := true })
      (fun t => decide (t.fresh = 0xC0#8) && !t.hdgLast) = true := by decide +kernel

/-- V46, second half. -/
theorem test_dualHeading :
    ran (exec (.dualHeading Header.zero (fixPayload 36)) busy) (fun t =>
      decide (t.fresh = 0x80#8) && t.hdgLast) = true := by decide +kernel

/-- An untracked frame whatever its payload: the event and nothing else (R202). -/
theorem test_untracked :
    ran (exec (.untracked 43#16 Header.zero (zeros 8)) busy) (fun t =>
      decide (t = { busy with events := [.attempt 0 (.untracked 43#16)] })) = true := by
  decide +kernel

theorem test_nop : exec .nop busy = .next busy := rfl

/-- RESET keeps rx (R332) and clears a record. -/
theorem test_reset :
    ran (exec .reset { State.reset with rx := [0xAA], valid := true, fresh := 0xFF#8 }) (fun t =>
      decide (t = { State.reset with rx := [0xAA] })) = true := by decide +kernel

/-- R271: POLL clears `fresh` and `valid` first. -/
theorem test_poll :
    ran (exec .poll { State.reset with valid := true, fresh := 0xFF#8 }) (fun t =>
      decide (t = busy)) = true := by decide +kernel

theorem test_stop : exec .stop State.reset = .next State.reset := rfl

/-- U3: refused while a POLL runs. -/
theorem test_snap :
    ran (exec .snap { State.reset with valid := true }) (fun t =>
      decide (t.snapOut.map (·.valid) = some true)) = true ∧
    exec .snap busy = .refused (.pollRunning "SNAP") := ⟨by decide +kernel, rfl⟩

theorem test_push :
    ran (exec (.push 0x44) { busy with rx := [0xAA] }) (fun t => decide (t.rx = [0xAA, 0x44]))
      = true := by decide

/-! ## AGG on one state (V58, V59, V60, V61) -/

/-- A state at AGG with these RXSTATUS bytes 0 to 3 and 8 to 11, a computed best position, and a
HEADING2 record of this position type. -/
def atAgg (e w : Bytes) (ty : Byte) : State :=
  { State.reset with
    pollPhase := .aggregate, fresh := 0x64#8, rxStatus := statusRecord e w,
    bestPos := fixPayload 64, heading2 := [0x00, 0x00, 0x00, 0x00, ty, 0x00, 0x00, 0x00] ++ zeros 40 }

theorem test_aggregate_accepts :
    (aggregate (atAgg (zeros 4) (zeros 4) 0x32)).valid = true ∧
    (aggregate (atAgg (zeros 4) (zeros 4) 0x32)).reason = .none ∧
    (aggregate (atAgg (zeros 4) (zeros 4) 0x30)).reason = .hdgType ∧
    (aggregate (atAgg (zeros 4) (zeros 4) 0x30)).valid = false := by decide +kernel

theorem test_aggregate_fault_and_flags :
    (aggregate (atAgg [0x01, 0x00, 0x00, 0x00] [0x00, 0x80, 0x00, 0x00] 0x32)).reason =
      .deviceFault ∧
    (aggregate (atAgg [0x01, 0x00, 0x00, 0x00] [0x00, 0x80, 0x00, 0x00] 0x32)).jamming = false ∧
    (aggregate (atAgg (zeros 4) [0x00, 0x82, 0x00, 0x00] 0x32)).jamming = true ∧
    (aggregate (atAgg (zeros 4) [0x00, 0x82, 0x00, 0x00] 0x32)).spoofing = true ∧
    (aggregate (atAgg (zeros 4) [0x00, 0x82, 0x00, 0x00] 0x32)).valid = true := by decide +kernel

/-! ## Witnesses: values that meet the hypotheses of each statement, clause by clause -/

theorem witness_CrcArithmeticLaws :
    ([0x01, 0x02, 0x03] : Bytes).length = ([0x10, 0x20, 0x30] : Bytes).length := by decide

/-- A window of 32 bits that begins at bit 7 and touches five bytes: the two strings differ at its
first and its last bit. -/
theorem witness_CrcDetectsChangeWithin32Bits :
    ([0x80, 0x00, 0x00, 0x00, 0x00] : Bytes).length = ([0x00, 0x00, 0x00, 0x00, 0x40] : Bytes).length ∧
    ([0x80, 0x00, 0x00, 0x00, 0x00] : Bytes) ≠ [0x00, 0x00, 0x00, 0x00, 0x40] ∧
    (∀ j, streamBit [0x80, 0x00, 0x00, 0x00, 0x00] j ≠ streamBit [0x00, 0x00, 0x00, 0x00, 0x40] j →
      7 ≤ j ∧ j < 7 + 32) ∧
    streamBit [0x80, 0x00, 0x00, 0x00, 0x00] 7 ≠ streamBit [0x00, 0x00, 0x00, 0x00, 0x40] 7 ∧
    streamBit [0x80, 0x00, 0x00, 0x00, 0x00] 38 ≠ streamBit [0x00, 0x00, 0x00, 0x00, 0x40] 38 := by
  refine ⟨by decide, by decide, fun j => ?_, by decide, by decide⟩
  rcases Nat.lt_or_ge j 40 with h | h
  · revert j; decide +kernel
  · exact fun hne => absurd
      ((streamBit_beyond [0x80, 0x00, 0x00, 0x00, 0x00] j h).trans
        (streamBit_beyond [0x00, 0x00, 0x00, 0x00, 0x40] j h).symm) hne

/-- A window of one byte, and of four. -/
theorem witness_CrcDetectsChangeWithinFourBytes :
    (([0x00] : Bytes).length = ([0x01] : Bytes).length ∧ ([0x00] : Bytes).length ≤ 4 ∧
      ([0x00] : Bytes) ≠ [0x01]) ∧
    (([0x00, 0x00, 0x00, 0x00] : Bytes).length = ([0x01, 0x00, 0x00, 0x80] : Bytes).length ∧
      ([0x00, 0x00, 0x00, 0x00] : Bytes).length ≤ 4 ∧
      ([0x00, 0x00, 0x00, 0x00] : Bytes) ≠ [0x01, 0x00, 0x00, 0x80]) := by decide

/-- The last byte of a payload of two; the payload of the largest length. -/
theorem witness_FlippedPayloadByteIsChecksumMismatch :
    (([0xDE, 0xAD] : Bytes).length ≤ 65535 ∧ 1 < ([0xDE, 0xAD] : Bytes).length ∧
      ([0xDE, 0xAD] : Bytes)[1]? ≠ some 0x00) ∧ (zeros 65535).length ≤ 65535 := by
  refine ⟨by decide, ?_⟩
  rw [zeros, List.length_replicate]

/-- A range that ends at `fb_len`, and one that ends one byte beyond it. -/
theorem witness_FrameBufferReadsBackWhatWasStored :
    0 + 4 ≤ (inStage .hdr (frameLead) []).fbLen ∧ (inStage .hdr (frameLead) []).fbLen < 0 + 5 := by
  decide +kernel

theorem witness_DecodeEncodeRoundTrip :
    Config.p0.wf = true ∧ Instr.wf Config.p0 (.untracked 1#16 Header.zero [0xDE]) = true ∧
    Instr.wf Config.p0 (.time Header.zero (zeros 44)) = true := by decide

theorem witness_FrameBytesReadBack : ([] : Bytes).length ≤ 65535 ∧ (zeros 65535).length ≤ 65535 := by
  refine ⟨by decide, ?_⟩
  rw [zeros, List.length_replicate]

/-- F_MIN and one byte more. -/
theorem witness_AcceptedBytesAreOneFrame :
    readFrame (head28 0 ++ [0xB0, 0x74, 0xFB, 0x90] ++ [0x77]) = (.frame (head28 0), [0x77]) := by
  decide +kernel

theorem witness_MessageIdSelectsKind :
    Config.p0.idsDistinct = true ∧ ∀ k : Kind, (43#16 : U16) ≠ kindMsgId Config.p0 k := by
  refine ⟨by decide, fun k => ?_⟩
  cases k <;> decide

/-- For each kind its own length, and one byte less. -/
theorem witness_FixedRecordFramesCommitOrRaise :
    (zeros 88).length = 88 ∧ (zeros 87).length ≠ 88 ∧
    (zeros 44).length = busy.cfg.sizeRxStatusEvent ∧ (zeros 43).length ≠ busy.cfg.sizeRxStatusEvent ∧
    (zeros 44).length = busy.cfg.sizeTime ∧ (zeros 43).length ≠ busy.cfg.sizeTime ∧
    (zeros 72).length = busy.cfg.sizeBestPos ∧ (zeros 71).length ≠ busy.cfg.sizeBestPos := by decide

theorem witness_HeadingFramesCommitOrRaise :
    (zeros 48).length = busy.cfg.sizeHeading2 ∧ (zeros 49).length ≠ busy.cfg.sizeHeading2 ∧
    (zeros 44).length = busy.cfg.sizeDualHeading ∧ (zeros 45).length ≠ busy.cfg.sizeDualHeading := by
  decide

/-- 3 bytes; count one above the capacity; count at the capacity with a wrong length; count 0, and
count at the capacity, with the right length. -/
theorem witness_VersionFrameCommitsOrRaises :
    (zeros 3).length < 4 ∧
    (4 ≤ (leBytes 4 9).length ∧ busy.cfg.versionCap < leAt (leBytes 4 9) 0 4) ∧
    (4 ≤ (leBytes 4 8).length ∧ leAt (leBytes 4 8) 0 4 ≤ busy.cfg.versionCap ∧
      (leBytes 4 8).length ≠ 4 + leAt (leBytes 4 8) 0 4 * 96) ∧
    (leAt (zeros 4) 0 4 ≤ busy.cfg.versionCap ∧
      (zeros 4).length = 4 + leAt (zeros 4) 0 4 * 96) ∧
    (leAt (leBytes 4 8 ++ zeros 768) 0 4 ≤ busy.cfg.versionCap ∧
      (leBytes 4 8 ++ zeros 768).length = 4 + leAt (leBytes 4 8 ++ zeros 768) 0 4 * 96) := by
  decide +kernel

theorem witness_HwMonitorFrameCommitsOrRaises :
    (zeros 3).length < 4 ∧
    (4 ≤ (leBytes 4 11).length ∧ busy.cfg.hwMonCap < leAt (leBytes 4 11) 0 4) ∧
    (4 ≤ (leBytes 4 10).length ∧ leAt (leBytes 4 10) 0 4 ≤ busy.cfg.hwMonCap ∧
      (leBytes 4 10).length ≠ 4 + leAt (leBytes 4 10) 0 4 * 8) ∧
    (leAt (zeros 4) 0 4 ≤ busy.cfg.hwMonCap ∧ (zeros 4).length = 4 + leAt (zeros 4) 0 4 * 8) ∧
    (leAt (leBytes 4 10 ++ zeros 80) 0 4 ≤ busy.cfg.hwMonCap ∧
      (leBytes 4 10 ++ zeros 80).length = 4 + leAt (leBytes 4 10 ++ zeros 80) 0 4 * 8) := by
  decide +kernel

/-- A state whose rx holds a whole TIME frame. -/
theorem witness_FrameRoundTripsIntoItsHolder :
    ∃ s : State, s.cfg.wf = true ∧ (zeros 44).length = fixedSize s.cfg .time ∧
      (zeros 44).length ≤ 65535 ∧
      s.rx = frameBytes (kindMsgId s.cfg (fixedToKind .time)) Header.zero (zeros 44) ++ [0x77] :=
  ⟨{ State.reset with rx := frameBytes 101#16 Header.zero (zeros 44) ++ [0x77] },
    by decide, by decide, by decide, rfl⟩

/-- A state whose rx holds an HWMONITOR frame with the count at the capacity; and one with count 0. -/
theorem witness_FrameRoundTripsIntoItsHolder_counted :
    (∃ s : State, s.cfg.wf = true ∧ 10 = leAt (leBytes 4 10 ++ zeros 80) 0 4 ∧
      10 ≤ countedCap s.cfg .hwMonitor ∧
      (leBytes 4 10 ++ zeros 80).length = 4 + 10 * countedElem .hwMonitor ∧
      (leBytes 4 10 ++ zeros 80).length ≤ 65535 ∧
      s.rx = frameBytes (kindMsgId s.cfg (countedToKind .hwMonitor)) Header.zero
        (leBytes 4 10 ++ zeros 80) ++ [0x77]) ∧
    (∃ s : State, s.cfg.wf = true ∧ 0 = leAt (zeros 4) 0 4 ∧ 0 ≤ countedCap s.cfg .version ∧
      (zeros 4).length = 4 + 0 * countedElem .version ∧ (zeros 4).length ≤ 65535 ∧
      s.rx = frameBytes (kindMsgId s.cfg (countedToKind .version)) Header.zero (zeros 4) ++ []) :=
  ⟨⟨{ State.reset with rx := frameBytes 963#16 Header.zero (leBytes 4 10 ++ zeros 80) ++ [0x77] },
      by decide, by decide +kernel, by decide, by decide +kernel, by decide +kernel, rfl⟩,
    ⟨{ State.reset with rx := frameBytes 37#16 Header.zero (zeros 4) ++ [] },
      by decide, by decide, by decide, by decide, by decide, rfl⟩⟩

/-- No POLL is running: the hypothesis of StopHasNoEffect, ResetSetsTheSpecifiedValues,
ResetKeepsTheOutside, PollClearsTheCycleFlags and SnapReturnsTheSnapshot. -/
theorem witness_HostOperationsWhenIdle : State.reset.pollPhase = .idle := rfl

/-- A POLL is running, in each of its phases. -/
theorem witness_HostOperationsRefusedDuringPoll :
    busy.pollPhase ≠ .idle ∧ (inStage .idle [] []).pollPhase ≠ .idle ∧
    (atAgg (zeros 4) (zeros 4) 0x32).pollPhase ≠ .idle := by decide

/-- Equal identifiers, a bad width, a SIZE one below OFF + W; and P0. -/
theorem witness_IndistinctIdentifiersAreRefused :
    { State.reset with cfg := { Config.p0 with msgIdTime := 42#16 } }.cfg.wf = false ∧
    { State.reset with cfg := { Config.p0 with wSolStat := 3 } }.cfg.wf = false ∧
    { State.reset with cfg := { Config.p0 with sizeTime := 43 } }.cfg.wf = false ∧
    Config.p0.idsDistinct = true ∧ kindMsgId Config.p0 .time = kindMsgId Config.p0 .time := by decide

theorem witness_AttemptStart :
    ((inStage .idle [] []).frStage = .idle ∧ (inStage .idle [] []).rx = []) ∧
    ((inStage .idle [] [0x00]).frStage = .idle ∧ (inStage .idle [] [0x00]).rx ≠ []) := by decide

/-- The marker byte, and one below it. -/
theorem witness_StageSyncOne :
    ((inStage .sync1 [] [0xAA]).frStage = .sync1 ∧ (inStage .sync1 [] [0xAA]).fbLen = 0 ∧
      (inStage .sync1 [] [0xAA]).rx = 0xAA :: [] ∧ (0xAA : Byte) = 0xAA) ∧
    ((inStage .sync1 [] [0xA9]).rx = 0xA9 :: [] ∧ (0xA9 : Byte) ≠ 0xAA) := by decide

/-- For each of the three stages: rx empty, another byte, the wanted byte. -/
theorem witness_StagesSyncTwoToHeaderLength :
    ((inStage .sync2 [0xAA] []).fbLen = 1 ∧ (inStage .sync2 [0xAA] []).rx = [] ∧
      (inStage .sync2 [0xAA] [0xAA]).rx = 0xAA :: [] ∧ (0xAA : Byte) ≠ 0x44 ∧
      (inStage .sync2 [0xAA] [0x44]).rx = 0x44 :: []) ∧
    ((inStage .sync3 [0xAA, 0x44] []).fbLen = 2 ∧ (inStage .sync3 [0xAA, 0x44] []).rx = [] ∧
      (inStage .sync3 [0xAA, 0x44] [0x44]).rx = 0x44 :: [] ∧ (0x44 : Byte) ≠ 0x12 ∧
      (inStage .sync3 [0xAA, 0x44] [0x12]).rx = 0x12 :: []) ∧
    ((inStage .hlen [0xAA, 0x44, 0x12] []).fbLen = 3 ∧
      (inStage .hlen [0xAA, 0x44, 0x12] []).rx = [] ∧
      (inStage .hlen [0xAA, 0x44, 0x12] [0x1D]).rx = 0x1D :: [] ∧ (0x1D : Byte) ≠ 28#8 ∧
      (inStage .hlen [0xAA, 0x44, 0x12] [0x1C]).rx = 28#8 :: []) := by decide +kernel

/-- 23 bytes; 24 bytes. -/
theorem witness_StageHeader :
    ((inStage .hdr frameLead (zeros 23)).frStage = .hdr ∧
      (inStage .hdr frameLead (zeros 23)).fbLen = 4 ∧
      (inStage .hdr frameLead (zeros 23)).rx.length < 24) ∧
    ((zeros 24).length = 24 ∧ (inStage .hdr frameLead (zeros 24)).rx = zeros 24 ++ []) := by
  decide +kernel

/-- A payload length of 2 with one byte in rx, and with two; and a payload length of 0. -/
theorem witness_StagePayload :
    ((inStage .pay (head28 2) [0xDE]).frStage = .pay ∧ (inStage .pay (head28 2) [0xDE]).fbLen = 28 ∧
      Memory.read (inStage .pay (head28 2) [0xDE]).fb 8 = some 0x02 ∧
      Memory.read (inStage .pay (head28 2) [0xDE]).fb 9 = some 0x00 ∧
      (inStage .pay (head28 2) [0xDE]).rx.length < (0x02 : Byte).toNat + 256 * (0x00 : Byte).toNat) ∧
    (([0xDE, 0xAD] : Bytes).length = (0x02 : Byte).toNat + 256 * (0x00 : Byte).toNat ∧
      (inStage .pay (head28 2) [0xDE, 0xAD]).rx = [0xDE, 0xAD] ++ []) ∧
    (Memory.read (inStage .pay (head28 0) []).fb 8 = some 0x00 ∧
      ([] : Bytes).length = (0x00 : Byte).toNat + 256 * (0x00 : Byte).toNat) := by decide +kernel

/-- 3 bytes; 4 bytes. -/
theorem witness_StageTrailer :
    ((inStage .crc (head28 0) (zeros 3)).frStage = .crc ∧
      (inStage .crc (head28 0) (zeros 3)).rx.length < 4) ∧
    (inStage .crc (head28 0) [0xB0, 0x74, 0xFB, 0x90]).rx = 0xB0 :: 0x74 :: 0xFB :: 0x90 :: [] := by
  decide +kernel

/-- F_MIN's checksum in `rx_crc`; and a wrong one. -/
theorem witness_StageCheck :
    ((inStage .chk (head28 0) []).frStage = .chk ∧
      (inStage .chk (head28 0) []).crcAcc ≠ (inStage .chk (head28 0) []).rxCrc) ∧
    ({ inStage .chk (head28 0) [] with rxCrc := 0x90FB74B0#32 }.crcAcc = 0x90FB74B0#32 ∧
      (inStage .chk (head28 0) []).fbLen = 28 + leAt (head28 0) 8 2 ∧
      Memory.readBytes (inStage .chk (head28 0) []).fb 0 28 = some (head28 0)) := by decide +kernel

theorem witness_BlockTurnByPollPhase :
    State.reset.pollPhase = .idle ∧
    (busy.pollPhase = .guard ∧ busy.rx = []) ∧
    ({ busy with rx := [0x00] }.pollPhase = .guard ∧ { busy with rx := [0x00] }.rx ≠ []) ∧
    (inStage .idle [] []).pollPhase = .attempt ∧
    (atAgg (zeros 4) (zeros 4) 0x32).pollPhase = .aggregate := by decide

theorem witness_AttemptConsumesByResult : ([0x00] : Bytes) ≠ [] := by decide

theorem witness_StagesRunAsTheFunctionalForm :
    (inStage .idle [] [0xAA]).cfg.wf = true ∧ (inStage .idle [] [0xAA]).slots = [] ∧
    (inStage .idle [] [0xAA]).pollPhase = .attempt ∧ (inStage .idle [] [0xAA]).frStage = .idle ∧
    (inStage .idle [] [0xAA]).rx ≠ [] := by decide

theorem witness_QuiescentPollIsAFunction :
    { State.reset with rx := [0xAA] }.cfg.wf = true ∧ { State.reset with rx := [0xAA] }.slots = [] ∧
    { State.reset with rx := [0xAA] }.pollPhase = .idle ∧
    { State.reset with rx := [0xAA] }.frStage = .idle := by decide

theorem witness_GarbageIsScannedOff :
    (∀ b ∈ ([0x00, 0xA9] : Bytes), b ≠ 0xAA#8) ∧
    { busy with rx := [0x00, 0xA9, 0xAA] }.rx = [0x00, 0xA9] ++ [0xAA] := by decide

/-- Each kind of slot, and none. -/
theorem witness_StepTakesTheNextSlot :
    State.reset.cfg.wf = true ∧ State.reset.slots = [] ∧
    { State.reset with slots := [.quiet] }.slots = .quiet :: [] ∧
    { State.reset with slots := [.port .snapshotRead] }.slots = .port .snapshotRead :: [] ∧
    { State.reset with slots := [.hostDrain 1] }.slots = .hostDrain 1 :: [] ∧
    { State.reset with slots := [.hostDrain 1] }.pollPhase = .idle := by decide

/-- F_MIN, read as far as S_CHK; with no slot, and with a quiet one. -/
theorem witness_StepRunsTheFrameItHasRead :
    ∃ (s : State) (w : Bytes), s.cfg.wf = true ∧ s.pollPhase = .attempt ∧ s.frStage = .chk ∧
      decode s.cfg (.frame w) = .ok (.untracked 1#16 Header.zero []) ∧ s.fbLen + 4 = w.length ∧
      Memory.readBytes s.fb 0 s.fbLen = some (w.take s.fbLen) ∧
      s.crcAcc = crc32 (w.take s.fbLen) ∧ s.rxCrc = BitVec.ofNat 32 (leNat (w.drop s.fbLen)) ∧
      s.slots = [] ∧ { s with slots := [.quiet] }.slots = .quiet :: [] :=
  ⟨State.reset.withFetchWord 16 1, head28 0 ++ [0xB0, 0x74, 0xFB, 0x90], by decide +kernel⟩

/-- A step that answers a next state, from inside a POLL; and a PUSH. Also the hypothesis of
RxKeepsItsOrder. -/
theorem witness_StepKeepsTheParameters :
    step busy = .next { busy with pollPhase := .aggregate } ∧
    step { busy with slots := [.port (.receiveWrite 0xAA)] } = .next { busy with rx := [0xAA] } := by
  exact ⟨rfl, rfl⟩

/-- A frame at S_CHK changes the RXSTATUS holder; RESET changes it. -/
theorem witness_HolderHasOneWriter :
    ran (step { inStage .chk (leadOf 0x5D 0x00 0x58 0x00 ++ List.replicate 88 0x01) [] with
        crcAcc := 0#32 })
      (fun t => decide (getFixed .rxStatus t ≠ zeros 88)) = true ∧
    ran (step { State.reset with
        slots := [.port (.command 1#2)], rxStatus := List.replicate 88 0x01 })
      (fun t => decide (getFixed .rxStatus t ≠ List.replicate 88 0x01)) = true := by
  decide +kernel

/-- F_HW1 at S_CHK changes the HWMONITOR store; RESET changes it. -/
theorem witness_HolderHasOneWriter_counted :
    ran (step { inStage .chk (leadOf 0xC3 0x03 0x0C 0x00 ++
        [0x01, 0x00, 0x00, 0x00, 0x00, 0x00, 0x1A, 0x42, 0x00, 0x01, 0x00, 0x00]) [] with
        rxCrc := 0x01CAC33F#32 })
      (fun t => decide (getCounted .hwMonitor t ≠ CountedStore.zero 10 8)) = true ∧
    ran (step { State.reset with
        slots := [.port (.command 1#2)], hwMonitor := { CountedStore.zero 10 8 with count := 1 } })
      (fun t => decide (getCounted .hwMonitor t ≠ { CountedStore.zero 10 8 with count := 1 }))
      = true := by decide +kernel

/-- A device fault; none, with each reason in turn. Also the hypothesis of
ReasonIsTheFirstThatApplies and JammingAndSpoofingBits. -/
theorem witness_AggregateIsOneFunction :
    errorWord (atAgg [0x01, 0x00, 0x00, 0x00] (zeros 4) 0x32) ≠ 0 ∧
    errorWord (atAgg (zeros 4) (zeros 4) 0x32) = 0 ∧
    antFault (atAgg (zeros 4) [0x20, 0x00, 0x00, 0x00] 0x32) = true ∧
    integFault (atAgg (zeros 4) [0x00, 0x00, 0x08, 0x00] 0x32) = true ∧
    (aggregate State.reset).reason = .noFresh ∧
    (aggregate { atAgg (zeros 4) (zeros 4) 0x32 with bestPos := 0x01 :: zeros 71 }).reason =
      .bestNotComputed ∧
    (aggregate { atAgg (zeros 4) (zeros 4) 0x32 with heading2 := 0x01 :: zeros 47 }).reason =
      .hdgNotComputed ∧
    (aggregate (atAgg (zeros 4) (zeros 4) 0x30)).reason = .hdgType := by decide +kernel

/-- Each of the five states is reached after an AGG. -/
theorem witness_NamedStatesExcludeAndImply :
    noData (aggregate State.reset) = true ∧
    partialData (aggregate { State.reset with fresh := 0x04#8 }) = true ∧
    bestFixAvailable (aggregate (atAgg (zeros 4) (zeros 4) 0x30)) = true ∧
    headingFixAvailable (aggregate (atAgg (zeros 4) (zeros 4) 0x30)) = true ∧
    fixValid (aggregate (atAgg (zeros 4) (zeros 4) 0x32)) = true := by decide +kernel

/-- An idle state with a jamming record and its flag, about to POLL with rx empty. -/
theorem witness_EmptyPollChangesOnlyTheCycleFlags :
    ∃ s : State, s.cfg.wf = true ∧ s.slots = [.port (.command 2#2)] ∧ s.pollPhase = .idle ∧
      s.rx = [] ∧ FlagsFollowRecord s :=
  ⟨{ atAgg (zeros 4) [0x00, 0x80, 0x00, 0x00] 0x32 with
      slots := [.port (.command 2#2)], pollPhase := .idle, jamming := true },
    by decide, rfl, rfl, rfl, fun _ _ => by decide +kernel⟩

/-- The same with a device fault, where the flags need not follow the record; with an antenna bit;
with an integrity bit. -/
theorem witness_EmptyPollChangesOnlyTheCycleFlags_reasons :
    let idle (e w : Bytes) : State := { atAgg e w 0x32 with
      slots := [.port (.command 2#2)], pollPhase := .idle }
    (FlagsFollowRecord (idle [0x01, 0x00, 0x00, 0x00] [0x00, 0x80, 0x00, 0x00]) ∧
      errorWord (idle [0x01, 0x00, 0x00, 0x00] [0x00, 0x80, 0x00, 0x00]) ≠ 0) ∧
    (FlagsFollowRecord (idle (zeros 4) [0x20, 0x00, 0x00, 0x00]) ∧
      antFault (idle (zeros 4) [0x20, 0x00, 0x00, 0x00]) = true) ∧
    (FlagsFollowRecord (idle (zeros 4) [0x00, 0x00, 0x08, 0x00]) ∧
      integFault (idle (zeros 4) [0x00, 0x00, 0x08, 0x00]) = true) :=
  ⟨⟨fun _ h => absurd h (by decide +kernel), by decide +kernel⟩,
    ⟨fun _ _ => by decide +kernel, by decide +kernel⟩,
    ⟨fun _ _ => by decide +kernel, by decide +kernel⟩⟩

/-- A stage that has stored one byte, and its next step. -/
theorem witness_StepKeepsFrameBufferForm :
    Memory.wf (inStage .sync2 [0xAA] [0x44]).fb = true ∧
    ran (step (inStage .sync2 [0xAA] [0x44])) (fun t => decide (t.fbLen = 2)) = true := by
  decide +kernel

theorem witness_StepKeepsHolderShapes :
    HoldersOk busy ∧ ∃ t, step busy = .next t :=
  ⟨⟨⟨by decide, by decide, by decide⟩, ⟨by decide, by decide, by decide⟩,
    fun k => by cases k <;> decide⟩, _, rfl⟩

theorem witness_StepKeepsReaderRegisters :
    ReaderOk (inStage .sync2 [0xAA] [0x44]) ∧
    ran (step (inStage .sync2 [0xAA] [0x44])) (fun t => decide (t.frStage = .sync3)) = true :=
  ⟨⟨⟨rfl, [0xAA], ⟨rfl, rfl, ⟨[], rfl⟩, rfl⟩⟩, fun h => by cases h⟩, by decide +kernel⟩

/-- A valid fix between POLLs, and a step of it. -/
theorem witness_StepKeepsValidMeaning :
    ValidOk (aggregate (atAgg (zeros 4) (zeros 4) 0x32)) ∧
    ran (step (aggregate (atAgg (zeros 4) (zeros 4) 0x32))) (·.valid) = true := by
  refine ⟨⟨?_, ?_, ?_, ?_, ?_, ?_, ?_, ?_⟩, by decide +kernel⟩
  · intro h; exact absurd rfl h
  all_goals intro; decide +kernel

/-- As for EmptyPollChangesOnlyTheCycleFlags, with a fresh HEADING2 record last; and a step. -/
theorem witness_StepKeepsFlagMeaning :
    ∃ s t : State, FlagsFollowRecord s ∧ HeadingLastOk s ∧ step s = .next t :=
  ⟨{ atAgg (zeros 4) [0x00, 0x80, 0x00, 0x00] 0x32 with pollPhase := .idle, jamming := true }, _,
    fun _ _ => by decide +kernel, ⟨fun _ _ => rfl, fun h => absurd h (by decide)⟩, rfl⟩

/-- A state inside an attempt. -/
theorem witness_NoStepFaults : ReaderOk (inStage .sync1 [] [0xAA]) :=
  ⟨⟨by decide, rfl, ⟨rfl, rfl, ⟨[], rfl⟩, rfl⟩⟩, fun h => by cases h⟩

end Sys2Proof.Tests
end

/-! # Proofs: the Frame Reader, stage by stage (41_frame_reader)

What a stage's shared parts answer (the read of R63, the one-byte comparison of R152 to R155, the
trailer's value, the fetch of an accepted frame), and from them the statements about the stages. -/

namespace Sys2Proof.Machine

/-! ## What the shared parts of a stage answer -/

/-- A short read raises and pops nothing (R63, R292). -/
theorem readThen_short {stage n : Nat} {s : State} {k : Bytes → State → Result}
    (h : s.rx.length < n) : readThen stage n s k = .next (raise .shortRead stage s) :=
  if_pos h

/-- A read that rx can serve pops its bytes and hands them to the stage (R63). -/
theorem readThen_append {stage n : Nat} {s : State} {k : Bytes → State → Result} {v t : Bytes}
    (hv : v.length = n) (hrx : s.rx = v ++ t) :
    readThen stage n s k = k v { s with rx := t, consumed := s.consumed + n } := by
  subst hv
  have henough : ¬ rxAvail s < v.length := by simp [rxAvail, hrx]
  rw [readThen, if_neg henough, rxPop, hrx, List.take_left, List.drop_left]

/-- Another byte than the wanted one raises (R152 to R155). -/
theorem matchByte_ne {want b : Byte} {e : ErrKind} {stage a : Nat} {g : Stage} {s : State}
    (hb : b ≠ want) : matchByte want e stage a g [b] s = .next (raise e stage s) :=
  if_pos (by simpa using hb)

/-- The wanted byte is stored and enters `crc_acc` (R152 to R155). -/
theorem matchByte_want {want : Byte} {e : ErrKind} {stage a : Nat} {g : Stage} {s : State}
    (ha : s.fbLen = a) (hcap : a < fbCapacity) :
    matchByte want e stage a g [want] s = .next { s with
      fb := Memory.write s.fb a want, fbLen := a + 1, crcAcc := crcStep s.crcAcc want,
      frStage := g } := by
  rw [matchByte, if_neg (by simp)]
  exact store_ok ha hcap

/-- The three cases of a one-byte stage that may read short (R153 to R155): nothing to read,
another byte, the wanted byte. -/
theorem readThen_matchByte {want : Byte} {e : ErrKind} {stage a : Nat} {g : Stage} {s : State}
    (ha : s.fbLen = a) (hcap : a < fbCapacity) :
    (s.rx = [] → readThen stage 1 s (matchByte want e stage a g) =
      .next (raise .shortRead stage s)) ∧
    (∀ b t, s.rx = b :: t → b ≠ want → readThen stage 1 s (matchByte want e stage a g) =
      .next (raise e stage { s with rx := t, consumed := s.consumed + 1 })) ∧
    (∀ b t, s.rx = b :: t → b = want → readThen stage 1 s (matchByte want e stage a g) =
      .next { s with
        rx := t, consumed := s.consumed + 1, fb := Memory.write s.fb a b, fbLen := a + 1,
        crcAcc := crcStep s.crcAcc b, frStage := g }) := by
  refine ⟨fun hrx => readThen_short (by simp [hrx]), fun b t hrx hb => ?_, fun b t hrx hb => ?_⟩
  · exact (readThen_append (v := [b]) rfl hrx).trans (matchByte_ne hb)
  · subst hb
    exact (readThen_append (v := [b]) rfl hrx).trans (matchByte_want ha hcap)

/-- A read of `n` bytes that are stored where `fb_len` stands (R156, R157). -/
theorem readThen_store {stage n a : Nat} {g : Stage} {s : State} {v t : Bytes} (ha : s.fbLen = a)
    (hcap : a + n ≤ fbCapacity) (hv : v.length = n) (hrx : s.rx = v ++ t) :
    readThen stage n s (fun v u => store a v g u) = .next { s with
      rx := t, consumed := s.consumed + n, fb := Memory.writeBytes s.fb a v, fbLen := a + n,
      crcAcc := crcFold s.crcAcc v, frStage := g } := by
  subst hv
  exact (readThen_append rfl hrx).trans (store_ok ha hcap)

/-- The low byte of a little-endian value is the last byte of its word. -/
theorem ofNat_byte_add (w n : Nat) (b : Byte) :
    BitVec.ofNat (w + 8) (b.toNat + 256 * n) = BitVec.ofNat w n ++ b := by
  have hb : b.toNat < 2 ^ 8 := b.isLt
  have hlow : (b.toNat + 256 * n) % 2 ^ 8 = b.toNat := by omega
  have hhigh : (b.toNat + 256 * n) / 2 ^ 8 = n := by omega
  apply BitVec.eq_of_toNat_eq
  rw [BitVec.toNat_append, BitVec.toNat_ofNat, BitVec.toNat_ofNat,
    ← Nat.shiftLeft_add_eq_or_of_lt hb, Nat.shiftLeft_eq, Nat.pow_add, Nat.mul_comm (2 ^ w),
    Nat.mod_mul, hlow, hhigh]
  ring

/-- The value of four bytes, little-endian (R94), is the word with the last byte on top. -/
theorem ofNat_leNat_four (t0 t1 t2 t3 : Byte) :
    BitVec.ofNat 32 (leNat [t0, t1, t2, t3]) = t3 ++ t2 ++ t1 ++ t0 := by
  have htop : BitVec.ofNat 8 (leNat [t3]) = t3 := by simp [leNat]
  calc BitVec.ofNat 32 (leNat [t0, t1, t2, t3])
      = BitVec.ofNat 24 (leNat [t1, t2, t3]) ++ t0 := ofNat_byte_add 24 _ t0
    _ = BitVec.ofNat 16 (leNat [t2, t3]) ++ t1 ++ t0 := congrArg (· ++ t0) (ofNat_byte_add 16 _ t1)
    _ = BitVec.ofNat 8 (leNat [t3]) ++ t2 ++ t1 ++ t0 :=
        congrArg (· ++ t1 ++ t0) (ofNat_byte_add 8 _ t2)
    _ = t3 ++ t2 ++ t1 ++ t0 := by rw [htop]

/-- `MemRead(8, 2)` gives the two bytes of `pay_len` once they lie inside `fb_len` (R66, R157). -/
theorem fbRead_length_bytes {s : State} {lo hi : Byte} (hlen : 10 ≤ s.fbLen)
    (hlo : Memory.read s.fb 8 = some lo) (hhi : Memory.read s.fb 9 = some hi) :
    fbRead 8 2 s = some [lo, hi] := by
  rw [fbRead, if_pos hlen]
  simp [Memory.readBytes, hlo, hhi]

/-- A frame buffer that holds `28 + pay_len` bytes is fetched whole (R160). -/
theorem fetchFrame_of_readBytes {s : State} {body : Bytes}
    (hlen : s.fbLen = 28 + leAt body 8 2)
    (hbody : Memory.readBytes s.fb 0 s.fbLen = some body) : fetchFrame s = some body := by
  have hfield : fbRead 8 2 s = some (slice body 8 2) := by
    rw [fbRead, if_pos (by omega)]
    simpa using Memory.readBytes_slice s.fb 0 s.fbLen 8 2 body hbody (by omega)
  have hwhole : headLen + leNat (slice body 8 2) = s.fbLen := hlen.symm
  simp only [fetchFrame, hfield, hwhole]
  rw [fbRead, if_pos (by omega), hbody]

/-! ## The statements about the stages -/

/-- Settles O31: rx holds a byte here, so the comparison decides the two cases (R152). -/
theorem stageSyncOne : Obligations.StageSyncOne := by
  intro s b t hg ha hrx
  have hrun : attemptStep s = matchByte sync1 .frameSyncMiss 1 0 .sync2 [b]
      { s with rx := t, consumed := s.consumed + 1 } := by
    simp [attemptStep, hg, stageSync1, rxAvail, rxPop, hrx]
  rw [hrun]
  refine ⟨fun hb => matchByte_ne hb, fun hb => ?_⟩
  subst hb
  exact matchByte_want ha (by decide)

/-- Settles O32: the three stages are one read and comparison, with their own wanted byte, error and
address (R153, R154, R155). -/
theorem stagesSyncTwoToHeaderLength : Obligations.StagesSyncTwoToHeaderLength := by
  refine ⟨fun s hg ha => ?_, fun s hg ha => ?_, fun s hg ha => ?_⟩
  all_goals
    simp only [attemptStep, hg]
    exact readThen_matchByte ha (by decide)

/-- Settles O33: the read of 24 bytes is short or stored at address 4 (R156). -/
theorem stageHeader : Obligations.StageHeader := by
  intro s hg ha
  simp only [attemptStep, hg]
  exact ⟨fun hshort => readThen_short hshort,
    fun h t hh hrx => readThen_store ha (by decide) hh hrx⟩

/-- Settles O34: the stage reads as many bytes as header bytes 8 and 9 say, which always fit fb
(R157). -/
theorem stagePayload : Obligations.StagePayload := by
  intro s lo hi hg ha hlo hhi
  have hn : leNat [lo, hi] = lo.toNat + 256 * hi.toNat := rfl
  have hrun : attemptStep s =
      readThen 6 (lo.toNat + 256 * hi.toNat) s (fun p t => store headLen p .crc t) := by
    simp only [attemptStep, hg, stagePay, fbRead_length_bytes (by omega) hlo hhi, hn]
  have hcap : headLen + (lo.toNat + 256 * hi.toNat) ≤ fbCapacity := by
    have := lo.isLt
    have := hi.isLt
    simp only [headLen, fbCapacity]
    omega
  rw [hrun]
  refine ⟨fun hshort => readThen_short hshort, fun p t hp hrx => ?_⟩
  rw [hp]
  exact readThen_store ha hcap hp hrx

/-- Settles O35: four bytes become `rx_crc`, or the read is short (R158). -/
theorem stageTrailer : Obligations.StageTrailer := by
  intro s hg
  simp only [attemptStep, hg]
  refine ⟨fun hshort => readThen_short hshort, fun t0 t1 t2 t3 t hrx => ?_⟩
  rw [← ofNat_leNat_four]
  exact readThen_append (v := [t0, t1, t2, t3]) rfl hrx

/-- Settles O36: the comparison of the two checksum registers, and on success the frame that the
stage fetches (R159, R160, R190). -/
theorem stageCheck : Obligations.StageCheck := by
  intro s hg
  simp only [attemptStep, hg]
  refine ⟨fun hne => if_pos hne, fun body heq hlen hbody => ?_⟩
  rw [stageChk, if_neg (not_not_intro heq), fetchFrame_of_readBytes hlen hbody]
  rfl

end Sys2Proof.Machine

/-! # Proofs: the Status Aggregator's `valid` (43_status_aggregator)

What each condition of AGG.7 says in the words of the records, and from that what `valid` says. -/

namespace Sys2Proof.Machine

/-! ## What each condition says of the records -/

/-- No word has a bit of its mask set (R234, R235). -/
theorem anyMasked_eq_false_iff (w m : StatusWords) : anyMasked w m = false ↔
    w.primary &&& m.primary = 0#32 ∧ w.aux1 &&& m.aux1 = 0#32 ∧ w.aux2 &&& m.aux2 = 0#32 ∧
    w.aux3 &&& m.aux3 = 0#32 ∧ w.aux4 &&& m.aux4 = 0#32 := by
  simp only [anyMasked, Bool.or_eq_false_iff, decide_eq_false_iff_not, not_not, and_assoc]

/-- `best_ok` of AGG.5 (R236). -/
theorem bestAccepted_eq_true_iff (s : State) : bestAccepted s = true ↔
    isFresh .bestPos s = true ∧ solStatus s.cfg s.bestPos = s.cfg.solComputed := by
  simp only [bestAccepted, Bool.and_eq_true, decide_eq_true_eq]

/-- `hdg_ok` of AGG.6 (R237). -/
theorem headingAccepted_eq_true_iff (s : State) : headingAccepted s = true ↔
    (isFresh .heading2 s = true ∨ isFresh .dualHeading s = true) ∧
    solStatus s.cfg (headingRecord s) = s.cfg.solComputed := by
  simp only [headingAccepted, headingFresh, Bool.and_eq_true, Bool.or_eq_true, decide_eq_true_eq]

/-- `type_ok` of AGG.7 (R238). -/
theorem typeAccepted_eq_true_iff (s : State) : typeAccepted s = true ↔
    posType s.cfg (headingRecord s) = s.cfg.ptMfFloat ∨
    posType s.cfg (headingRecord s) = s.cfg.ptWideInt ∨
    posType s.cfg (headingRecord s) = s.cfg.ptNarrowInt := by
  simp only [typeAccepted, Bool.or_eq_true, decide_eq_true_eq, or_assoc]

/-! ## What `valid` says -/

/-- `valid` after AGG in the model's own flags: a device fault leaves it false (R233), and without
one it is the conjunction of AGG.7 (R238). -/
theorem aggregate_valid_iff (s : State) : (aggregate s).valid = true ↔
    errorWord s = 0 ∧ antFault s = false ∧ integFault s = false ∧ bestAccepted s = true ∧
    headingAccepted s = true ∧ typeAccepted s = true := by
  by_cases herr : errorWord s = 0
  · rw [aggregate_valid_noFault s herr]
    simp only [herr, true_and, Bool.and_eq_true, Bool.not_eq_true', and_assoc]
  · simp [aggregate_valid_fault s herr, herr]

/-- Settles O48: `valid` is the conjunction of AGG.7 without a device fault, and each conjunct is
read in record bytes; `H` is the heading record decoded last (R231, R233 to R238). -/
theorem validIffEveryConditionHolds : Obligations.ValidIffEveryConditionHolds := by
  intro s
  rw [aggregate_valid_iff, antFault, integFault, anyMasked_eq_false_iff, anyMasked_eq_false_iff,
    bestAccepted_eq_true_iff, headingAccepted_eq_true_iff, typeAccepted_eq_true_iff,
    exists_eq_left, and_assoc (a := isFresh .heading2 s = true ∨ isFresh .dualHeading s = true)]
  -- What is left is how the accessors read the holders: status word `g` at byte `8 + 16 * g`
  -- (R231), the fresh bit of a kind at its index (R21).
  exact Iff.rfl

end Sys2Proof.Machine

/-! # Proofs: the operations at the ports (44_host_operations)

What PUSH, STOP and RESET answer as whole next states, and from that the statements about them and
about the port codes. -/

namespace Sys2Proof.Machine

/-! ## What each operation answers -/

/-- PUSH asks for no idle block (R276, R277). -/
theorem exec_push (b : Byte) (s : State) : exec (.push b) s = .next (rxPush b s) := rfl

/-- STOP answers the state it was given (R279). -/
theorem exec_stop_of_idle {s : State} (hidle : s.pollPhase = .idle) : exec .stop s = .next s :=
  whenIdle_idle hidle

/-- RESET answers the state at the reset values (R270). -/
theorem exec_reset_of_idle {s : State} (hidle : s.pollPhase = .idle) :
    exec .reset s = .next (resetState s) :=
  whenIdle_idle hidle

/-! ## The statements about the ports -/

/-- Settles O8: what each access of R280 decodes to, and what encodes to it under any parameters. -/
theorem portCodesDecodeAndEncode : Obligations.PortCodesDecodeAndEncode := by
  refine ⟨?nop, ?reset, ?poll, ?stop, rfl, fun _ => rfl, ?encoded⟩
  case encoded => exact fun _ => ⟨rfl, rfl, rfl, rfl, rfl, fun _ => rfl⟩
  -- A command code is compared with each of the four in turn.
  all_goals decide

/-- Settles O21: PUSH is the append to rx in every state (R276). -/
theorem pushAppendsOneByte : Obligations.PushAppendsOneByte := exec_push

/-- Settles O22: the idle block answers STOP with its own state (R279). -/
theorem stopHasNoEffect : Obligations.StopHasNoEffect := fun _ hidle => exec_stop_of_idle hidle

/-- Settles O24: the next state is `resetState`, and every row of R50 is read off its fields: rx is
the state's own, all others are those of `State.resetOf`; `time_valid` reads the TIME holder and the
kept parameters (R242). -/
theorem resetSetsTheSpecifiedValues : Obligations.ResetSetsTheSpecifiedValues := by
  intro s hidle
  refine ⟨resetState s, exec_reset_of_idle hidle, ?_⟩
  and_intros
  all_goals rfl

end Sys2Proof.Machine

/-! # Proofs: instructions and their bytes (30_encoding, R100)

Which instruction an identifier selects; what the reader's fields find in the bytes a frame is laid
out in, and that accepted bytes are laid out so; from that decoding after encoding. -/

namespace Sys2Proof.Machine
open Sys2Proof.Laws.EncodedForm

/-! ## The eight identifiers (R100, R101) -/

/-- The eight tracked kinds in the order of R21, which is also that of `Config.msgIds`. -/
def allKinds : List Kind :=
  [.version, .hwMonitor, .rxStatus, .rxStatusEvent, .time, .bestPos, .heading2, .dualHeading]

theorem mem_allKinds (k : Kind) : k ∈ allKinds := by cases k <;> decide

/-- Pairwise distinct identifiers are an injective naming of the kinds (R101). -/
theorem idsDistinct_iff (c : Config) :
    c.idsDistinct = true ↔ ∀ k j : Kind, kindMsgId c k = kindMsgId c j → k = j := by
  have hmap : c.msgIds = allKinds.map (kindMsgId c) := rfl
  have hnodup : allKinds.Nodup := by decide
  rw [Config.idsDistinct, decide_eq_true_iff, hmap, List.nodup_map_iff_inj_on hnodup]
  exact ⟨fun h k j => h k (mem_allKinds k) j (mem_allKinds j), fun h k _ j _ => h k j⟩

theorem idsDistinct_of_wf {c : Config} (h : c.wf = true) : c.idsDistinct = true := by
  simp only [Config.wf, Bool.and_eq_true] at h
  exact h.1.1

/-- The frame instruction of a tracked kind (R100). -/
def kindInstr (k : Kind) (h : Header) (p : Bytes) : Instr :=
  match k with
  | .version => .version h p
  | .hwMonitor => .hwMonitor h p
  | .rxStatus => .rxStatus h p
  | .rxStatusEvent => .rxStatusEvent h p
  | .time => .time h p
  | .bestPos => .bestPos h p
  | .heading2 => .heading2 h p
  | .dualHeading => .dualHeading h p

/-- The selection of R100 in terms of the kinds' identifiers. -/
theorem selectInstr_eq (c : Config) (id : U16) (h : Header) (p : Bytes) :
    selectInstr c id h p =
      if id = kindMsgId c .version then kindInstr .version h p
      else if id = kindMsgId c .hwMonitor then kindInstr .hwMonitor h p
      else if id = kindMsgId c .rxStatus then kindInstr .rxStatus h p
      else if id = kindMsgId c .rxStatusEvent then kindInstr .rxStatusEvent h p
      else if id = kindMsgId c .time then kindInstr .time h p
      else if id = kindMsgId c .bestPos then kindInstr .bestPos h p
      else if id = kindMsgId c .heading2 then kindInstr .heading2 h p
      else if id = kindMsgId c .dualHeading then kindInstr .dualHeading h p
      else .untracked id h p := rfl

/-- A kind's identifier selects the kind's instruction. -/
theorem selectInstr_kind {c : Config} (hc : c.idsDistinct = true) (k : Kind) (h : Header)
    (p : Bytes) : selectInstr c (kindMsgId c k) h p = kindInstr k h p := by
  have hiff : ∀ k j, kindMsgId c k = kindMsgId c j ↔ k = j :=
    fun k j => ⟨(idsDistinct_iff c).mp hc k j, fun h => h ▸ rfl⟩
  simp only [selectInstr_eq, hiff]
  cases k <;> rfl

/-- An identifier of no kind selects UNTRACKED (R102). -/
theorem selectInstr_untracked {c : Config} {id : U16} (hid : ∀ k, id ≠ kindMsgId c k) (h : Header)
    (p : Bytes) : selectInstr c id h p = .untracked id h p := by
  simp only [selectInstr_eq, hid, if_false]

theorem isUntracked_iff (c : Config) (id : U16) :
    c.isUntracked id = true ↔ ∀ k, id ≠ kindMsgId c k := by
  have hmap : c.msgIds = allKinds.map (kindMsgId c) := rfl
  simp only [Config.isUntracked, hmap, Bool.not_eq_true', List.contains_eq_mem,
    decide_eq_false_iff_not, List.mem_map, not_exists, not_and]
  exact ⟨fun h k e => h k (mem_allKinds k) e.symm, fun h k _ e => h k e.symm⟩

/-- Settles O13: each identifier is compared with the eight in turn, and they are distinct. -/
theorem messageIdSelectsKind : Obligations.MessageIdSelectsKind := by
  intro c h p hc
  have hk := fun k => selectInstr_kind hc k h p
  exact ⟨hk .version, hk .hwMonitor, hk .rxStatus, hk .rxStatusEvent, hk .time, hk .bestPos,
    hk .heading2, hk .dualHeading, fun id hid => selectInstr_untracked hid h p⟩

/-- Settles O29: `step` looks at `Config.wf` before all else; its three tests are those of R101 and
R5; distinct identifiers name one kind each. -/
theorem indistinctIdentifiersAreRefused : Obligations.IndistinctIdentifiersAreRefused := by
  refine ⟨fun s hs => by simp [step, hs], fun c => ?_,
    fun c k j hc => (idsDistinct_iff c).mp hc k j⟩
  simp only [Config.wf, Config.widthsOk, Config.widthOk, Config.sizesOk, Bool.and_eq_true,
    Bool.or_eq_true, beq_iff_eq, decide_eq_true_eq, idsDistinct_iff, List.forall_mem_cons,
    List.not_mem_nil, false_implies, implies_true, and_true, and_assoc, or_assoc]

/-! ## The fields of a frame's bytes (R90, R91) -/

/-- The value of `n` bytes laid out little-endian, at the width they were taken from. -/
theorem ofNat_leNat_leBytes {w : Nat} (n : Nat) (x : BitVec w) (hw : w ≤ 8 * n) :
    BitVec.ofNat w (leNat (leBytes n x.toNat)) = x := by
  have hx : x.toNat < 256 ^ n := by
    calc x.toNat < 2 ^ w := x.isLt
      _ ≤ 2 ^ (8 * n) := Nat.pow_le_pow_right (by decide) hw
      _ = 256 ^ n := by rw [Nat.pow_mul]
  rw [leNat_leBytes, Nat.mod_eq_of_lt hx, BitVec.ofNat_toNat, BitVec.setWidth_eq]

/-- The bytes of a field's value are the bytes of the field (R94). -/
theorem leBytes_leAt (s : Bytes) (off n : Nat) (h : off + n ≤ s.length) :
    leBytes n (leAt s off n) = slice s off n := by
  have hslice := leBytes_leNat (slice s off n)
  rwa [slice_length s off n h] at hslice

/-- The same through the word the field is held in. -/
theorem leBytes_ofNat_leAt {w : Nat} (s : Bytes) (off n : Nat) (hw : w = 8 * n)
    (h : off + n ≤ s.length) : leBytes n (BitVec.ofNat w (leAt s off n)).toNat = slice s off n := by
  have hlt : leAt s off n < 2 ^ w := by
    rw [hw, Nat.pow_mul]
    exact leAt_lt s off n
  rw [BitVec.toNat_ofNat, Nat.mod_eq_of_lt hlt, leBytes_leAt s off n h]

/-- Two adjacent slices are one. -/
theorem slice_append_slice (s : Bytes) {off n off' : Nat} (k : Nat) (h : off' = off + n) :
    slice s off n ++ slice s off' k = slice s off (n + k) := by
  subst h
  simp only [slice, List.take_add, List.drop_drop]

/-- A payload that fits the length field is as long as its two bytes say (R90, R93). -/
theorem leNat_leBytes_payload {p : Bytes} (hp : p.length ≤ 65535) :
    leNat (leBytes 2 p.length) = p.length := by
  rw [leNat_leBytes, Nat.mod_eq_of_lt (by omega)]

theorem frameId_frameBody (id : U16) (h : Header) (p : Bytes) : frameId (frameBody id h p) = id :=
  ofNat_leNat_leBytes 2 id (by decide)

theorem frameLen_frameBody (id : U16) (h : Header) {p : Bytes} (hp : p.length ≤ 65535) :
    frameLen (frameBody id h p) = p.length := leNat_leBytes_payload hp

theorem framePayload_frameBody (id : U16) (h : Header) {p : Bytes} (hp : p.length ≤ 65535) :
    framePayload (frameBody id h p) = p := by
  rw [framePayload, frameLen_frameBody id h hp, slice]
  exact List.take_length

/-- One byte as a field of one byte. -/
theorem ofNat_leNat_single (b : Byte) : BitVec.ofNat 8 (leNat [b]) = b := by simp [leNat]

theorem headerOf_frameBody (id : U16) (h : Header) (p : Bytes) :
    headerOf (frameBody id h p) = h := by
  simp only [headerOf, leAt, slice, frameBody, frameLead, headerRest, leBytes,
    List.cons_append, List.nil_append, List.drop_succ_cons, List.drop_zero, List.take_succ_cons,
    List.take_zero]
  rw [Header.mk.injEq]
  exact ⟨ofNat_leNat_single _, ofNat_leNat_single _, ofNat_leNat_leBytes 2 h.sequence (by decide),
    ofNat_leNat_single _, ofNat_leNat_single _, ofNat_leNat_leBytes 2 h.week (by decide),
    ofNat_leNat_leBytes 4 h.ms (by decide), ofNat_leNat_leBytes 4 h.rxStatus (by decide),
    ofNat_leNat_leBytes 2 h.reserved (by decide), ofNat_leNat_leBytes 2 h.fwBuild (by decide)⟩

/-- The converse: the header rest laid out from the fields found in 28 bytes or more is bytes 4 to
27 of them (R91). -/
theorem headerRest_fields (body : Bytes) (hlen : 28 ≤ body.length) :
    headerRest (frameId body) (headerOf body) (frameLen body) = slice body 4 24 := by
  have hword : ∀ {w : Nat} (off n : Nat), w = 8 * n → off + n ≤ 28 →
      leBytes n (BitVec.ofNat w (leAt body off n)).toNat = slice body off n :=
    fun off n hw hoff => leBytes_ofNat_leAt body off n hw (by omega)
  have hpair : ∀ off, off + 2 ≤ 28 → [BitVec.ofNat 8 (leAt body off 1),
      BitVec.ofNat 8 (leAt body (off + 1) 1)] = slice body off 2 := fun off hoff => by
    rw [← slice_append_slice body 1 rfl, ← leBytes_leAt body off 1 (by omega),
      ← leBytes_leAt body (off + 1) 1 (by omega)]
    rfl
  simp only [headerRest, frameId, frameLen, headerOf, leBytes_leAt body 8 2 (by omega),
    hword 4 2 rfl (by decide), hword 10 2 rfl (by decide), hword 14 2 rfl (by decide),
    hword 16 4 rfl (by decide), hword 20 4 rfl (by decide), hword 24 2 rfl (by decide),
    hword 26 2 rfl (by decide), hpair 6 (by decide), hpair 12 (by decide)]
  simp (disch := rfl) only [slice_append_slice]


/-! ## The reader on a frame's bytes (R165) -/

/-- Once the marker and the header-length byte have matched and the header rest is there, the reader
is at the payload (R165). -/
theorem readFrame_frameLead {h : Bytes} (hh : h.length = 24) (u : Bytes) :
    readFrame (frameLead ++ h ++ u) = readBody h u := by
  have htake : (h ++ u).take hdrRestLen = h := List.take_left' hh
  have hdrop : (h ++ u).drop hdrRestLen = u := List.drop_left' hh
  have hlen : ¬ (h ++ u).length < hdrRestLen := by
    rw [List.length_append, hh]
    exact Nat.not_lt.mpr (Nat.le_add_right _ _)
  rw [List.append_assoc]
  simp only [frameLead, List.cons_append, List.nil_append, readFrame, ne_eq, not_true_eq_false,
    if_false, htake, hdrop, hlen]

/-- The reader's tail on a payload of the declared length, any four bytes as trailer, and what
follows them. -/
theorem readBody_append {h p t : Bytes} (hp : p.length = leAt h 4 2) (ht : t.length = crcLen)
    (rest : Bytes) : readBody h (p ++ t ++ rest) =
      if crc32 (frameLead ++ h ++ p) = BitVec.ofNat 32 (leNat t)
      then (.frame (frameLead ++ h ++ p), rest) else (.err .checksumMismatch 8, rest) := by
  have hlong : ¬ (p ++ t ++ rest).length < leAt h 4 2 + crcLen := by
    simp only [List.length_append, hp, ht]
    omega
  have htake : (p ++ t ++ rest).take (leAt h 4 2) = p := by
    rw [List.append_assoc, ← hp, List.take_left]
  have htrailer : leAt (p ++ t ++ rest) (leAt h 4 2) crcLen = leNat t := by
    rw [leAt, slice, List.append_assoc, ← hp, List.drop_left, List.take_left' ht]
  have hdrop : (p ++ t ++ rest).drop (leAt h 4 2 + crcLen) = rest :=
    List.drop_left' (by simp only [List.length_append, hp, ht])
  rw [readBody]
  simp only [if_neg hlong, if_neg (show ¬ (p ++ t ++ rest).length < leAt h 4 2 by omega), htake,
    htrailer, hdrop]

/-- The value of a checksum's trailer bytes is the checksum (R95). -/
theorem ofNat_leNat_le32 (c : U32) : BitVec.ofNat 32 (leNat (le32 c)) = c :=
  ofNat_leNat_leBytes 4 c (by decide)

theorem le32_length (c : U32) : (le32 c).length = 4 := leBytes_length 4 _

/-- The four bytes a word is the value of are its trailer bytes (R95). -/
theorem le32_ofNat_leNat {t : Bytes} (ht : t.length = 4) :
    le32 (BitVec.ofNat 32 (leNat t)) = t := by
  have hslice : slice t 0 4 = t := by rw [slice, List.drop_zero, ← ht, List.take_length]
  rw [le32, ← hslice]
  simpa only [leAt, hslice] using leBytes_ofNat_leAt (w := 32) t 0 4 rfl (by omega)

/-- The reader on a frame's bytes with any checksum as trailer. -/
theorem readFrame_frameBody (id : U16) (h : Header) {p : Bytes} (hp : p.length ≤ 65535) (c : U32)
    (rest : Bytes) : readFrame (frameBody id h p ++ le32 c ++ rest) =
      if crc32 (frameBody id h p) = c then (.frame (frameBody id h p), rest)
      else (.err .checksumMismatch 8, rest) := by
  have hlen : p.length = leAt (headerRest id h p.length) 4 2 := (leNat_leBytes_payload hp).symm
  have hread := readBody_append hlen (le32_length c) rest
  rw [ofNat_leNat_le32] at hread
  have hcut : frameBody id h p ++ le32 c ++ rest =
      frameLead ++ headerRest id h p.length ++ (p ++ le32 c ++ rest) := by
    simp only [frameBody, List.append_assoc]
  rw [hcut, readFrame_frameLead (headerRest_length id h p.length), hread]
  rfl

/-- Settles O11: the reader on a frame's own checksum, and the field laws (R90, R91, R93, R95). -/
theorem frameBytesReadBack : Obligations.FrameBytesReadBack := by
  intro id h p rest hp
  refine ⟨?_, frameId_frameBody id h p, headerOf_frameBody id h p, frameLen_frameBody id h hp,
    framePayload_frameBody id h hp⟩
  rw [frameBytes, readFrame_frameBody id h hp, if_pos rfl]

/-- Decoding a well-formed frame's bytes gives what its identifier selects (R100). -/
theorem decode_frameBytes (c : Config) (id : U16) (h : Header) {p : Bytes}
    (hp : payloadFits p = true) :
    decode c (.frame (frameBytes id h p)) = .ok (selectInstr c id h p) := by
  have hlen : p.length ≤ 65535 := of_decide_eq_true hp
  obtain ⟨hread, hid, hheader, -, hpayload⟩ := frameBytesReadBack id h p [] hlen
  rw [List.append_nil] at hread
  simp only [decode, decodeFrame, hread, frameInstr, hid, hheader, hpayload]

/-- Settles O10: a port access by its code; a tracked frame because its kind's identifier selects
the kind; an untracked one because its identifier is no kind's. -/
theorem decodeEncodeRoundTrip : Obligations.DecodeEncodeRoundTrip := by
  intro c i hc hi
  have htracked : ∀ (k : Kind) (h : Header) (p : Bytes), payloadFits p = true →
      decode c (.frame (frameBytes (kindMsgId c k) h p)) = .ok (kindInstr k h p) :=
    fun k h p hp => by
      rw [decode_frameBytes c _ h hp, selectInstr_kind (idsDistinct_of_wf hc)]
  cases i with
  | version h p => exact htracked .version h p hi
  | hwMonitor h p => exact htracked .hwMonitor h p hi
  | rxStatus h p => exact htracked .rxStatus h p hi
  | rxStatusEvent h p => exact htracked .rxStatusEvent h p hi
  | time h p => exact htracked .time h p hi
  | bestPos h p => exact htracked .bestPos h p hi
  | heading2 h p => exact htracked .heading2 h p hi
  | dualHeading h p => exact htracked .dualHeading h p hi
  | untracked id h p =>
    simp only [Instr.wf, Bool.and_eq_true] at hi
    rw [encode, decode_frameBytes c id h hi.2,
      selectInstr_untracked ((isUntracked_iff c id).mp hi.1)]
  | nop | reset | poll | stop | snap | push _ => rfl


/-! ## What the reader accepts, and what it consumes (R161, R162, R165) -/

/-- The ways a byte list can begin, as far as the reader looks before the payload (R151 to R156). -/
inductive LeadCase : Bytes → Prop where
  | empty : LeadCase []
  | missSync1 {x : Byte} (hx : x ≠ sync1) (t : Bytes) : LeadCase (x :: t)
  | shortSync2 : LeadCase [sync1]
  | missSync2 {x : Byte} (hx : x ≠ sync2) (t : Bytes) : LeadCase (sync1 :: x :: t)
  | shortSync3 : LeadCase [sync1, sync2]
  | missSync3 {x : Byte} (hx : x ≠ sync3) (t : Bytes) : LeadCase (sync1 :: sync2 :: x :: t)
  | shortHlen : LeadCase [sync1, sync2, sync3]
  | badHlen {x : Byte} (hx : x ≠ hdrLenConst) (t : Bytes) :
      LeadCase (sync1 :: sync2 :: sync3 :: x :: t)
  | shortHeader {t : Bytes} (ht : t.length < 24) : LeadCase (frameLead ++ t)
  | header {h : Bytes} (hh : h.length = 24) (u : Bytes) : LeadCase (frameLead ++ h ++ u)

theorem leadCase (rx : Bytes) : LeadCase rx := by
  rcases rx with _ | ⟨a, rx⟩
  · exact .empty
  by_cases ha : a = sync1; swap
  · exact .missSync1 ha rx
  subst ha
  rcases rx with _ | ⟨a, rx⟩
  · exact .shortSync2
  by_cases ha : a = sync2; swap
  · exact .missSync2 ha rx
  subst ha
  rcases rx with _ | ⟨a, rx⟩
  · exact .shortSync3
  by_cases ha : a = sync3; swap
  · exact .missSync3 ha rx
  subst ha
  rcases rx with _ | ⟨a, rx⟩
  · exact .shortHlen
  by_cases ha : a = hdrLenConst; swap
  · exact .badHlen ha rx
  subst ha
  rcases Nat.lt_or_ge rx.length 24 with hshort | hlong
  · exact .shortHeader hshort
  · have hheader := LeadCase.header (h := rx.take 24) (by rw [List.length_take]; omega) (rx.drop 24)
    rwa [List.append_assoc, List.take_append_drop] at hheader

/-! What the reader answers when the bytes before the payload are not all there or not as wanted. -/

theorem readFrame_missSync1 {x : Byte} (hx : x ≠ sync1) (t : Bytes) :
    readFrame (x :: t) = (.err .frameSyncMiss 1, t) := by simp [readFrame, hx]
theorem readFrame_shortSync2 : readFrame [sync1] = (.err .shortRead 2, []) := by simp [readFrame]
theorem readFrame_missSync2 {x : Byte} (hx : x ≠ sync2) (t : Bytes) :
    readFrame (sync1 :: x :: t) = (.err .frameSyncMiss 2, t) := by simp [readFrame, hx]
theorem readFrame_shortSync3 : readFrame [sync1, sync2] = (.err .shortRead 3, []) := by
  simp [readFrame]
theorem readFrame_missSync3 {x : Byte} (hx : x ≠ sync3) (t : Bytes) :
    readFrame (sync1 :: sync2 :: x :: t) = (.err .frameSyncMiss 3, t) := by simp [readFrame, hx]
theorem readFrame_shortHlen : readFrame [sync1, sync2, sync3] = (.err .shortRead 4, []) := by
  simp [readFrame]
theorem readFrame_badHlen {x : Byte} (hx : x ≠ hdrLenConst) (t : Bytes) :
    readFrame (sync1 :: sync2 :: sync3 :: x :: t) = (.err .headerLenMismatch 4, t) := by
  simp [readFrame, hx]
theorem readFrame_shortHeader {t : Bytes} (ht : t.length < 24) :
    readFrame (frameLead ++ t) = (.err .shortRead 5, t) := by
  simp [readFrame, frameLead, hdrRestLen, ht]

/-- Bytes that hold a payload of `n` bytes and a trailer, taken apart. -/
theorem exists_payload_trailer {u : Bytes} {n : Nat} (hu : n + crcLen ≤ u.length) :
    ∃ p t rest, u = p ++ t ++ rest ∧ p.length = n ∧ t.length = crcLen := by
  refine ⟨u.take n, (u.drop n).take crcLen, (u.drop n).drop crcLen, ?_, ?_, ?_⟩
  · rw [List.append_assoc, List.take_append_drop, List.take_append_drop]
  · rw [List.length_take]; omega
  · rw [List.length_take, List.length_drop]; omega

/-- With payload and trailer there, the reader consumes both and compares the checksums (R159). -/
theorem readBody_long {h u : Bytes} (hu : leAt h 4 2 + crcLen ≤ u.length) :
    (∃ body, readBody h u = (.frame body, u.drop (leAt h 4 2 + crcLen))) ∨
    readBody h u = (.err .checksumMismatch 8, u.drop (leAt h 4 2 + crcLen)) := by
  simp only [readBody, if_neg (Nat.not_lt.mpr hu),
    if_neg (Nat.not_lt.mpr (Nat.le_trans (Nat.le_add_right _ _) hu))]
  split
  · exact .inl ⟨_, rfl⟩
  · exact .inr rfl

/-- What the reader accepts: lead, header rest, payload and trailer one after another, the trailer
holding the checksum of what is before it (R90, R95). -/
theorem readFrame_accepts {rx body rest : Bytes} (hread : readFrame rx = (.frame body, rest)) :
    ∃ h p t, h.length = 24 ∧ p.length = leAt h 4 2 ∧ t.length = 4 ∧
      body = frameLead ++ h ++ p ∧ rx = body ++ t ++ rest ∧
      crc32 body = BitVec.ofNat 32 (leNat t) := by
  cases leadCase rx with
  | empty => cases hread
  | missSync1 hx t => rw [readFrame_missSync1 hx] at hread; cases hread
  | shortSync2 => rw [readFrame_shortSync2] at hread; cases hread
  | missSync2 hx t => rw [readFrame_missSync2 hx] at hread; cases hread
  | shortSync3 => rw [readFrame_shortSync3] at hread; cases hread
  | missSync3 hx t => rw [readFrame_missSync3 hx] at hread; cases hread
  | shortHlen => rw [readFrame_shortHlen] at hread; cases hread
  | badHlen hx t => rw [readFrame_badHlen hx] at hread; cases hread
  | shortHeader ht => rw [readFrame_shortHeader ht] at hread; cases hread
  | @header h hh u =>
    rw [readFrame_frameLead hh] at hread
    rcases Nat.lt_or_ge u.length (leAt h 4 2 + crcLen) with hshort | hlong
    · simp only [readBody, if_pos hshort] at hread
      split at hread <;> cases hread
    · obtain ⟨p, t, rest', rfl, hp, ht⟩ := exists_payload_trailer hlong
      rw [readBody_append hp ht] at hread
      split at hread
      · next hcrc =>
        cases hread
        exact ⟨h, p, t, hh, hp, ht, rfl, by simp only [List.append_assoc], hcrc⟩
      · cases hread

/-- The 28 bytes before a payload are those of the fields found in them (R90, R91). -/
theorem eq_frameBody {h p : Bytes} (hh : h.length = 24) (hp : p.length = leAt h 4 2) :
    framePayload (frameLead ++ h ++ p) = p ∧
    frameLead ++ h ++ p = frameBody (frameId (frameLead ++ h ++ p))
      (headerOf (frameLead ++ h ++ p)) p := by
  have hlead : (frameLead ++ h).length = 28 := by rw [List.length_append, hh]; rfl
  have hlen : frameLen (frameLead ++ h ++ p) = p.length := by
    rw [frameLen, leAt_append_left _ _ _ _ (by omega), hp]
    rfl
  have hheader : slice (frameLead ++ h ++ p) 4 24 = h := by
    rw [slice_append_left _ _ _ _ (by omega)]
    exact List.take_of_length_le (Nat.le_of_eq hh)
  constructor
  · rw [framePayload, hlen, slice]
    exact (congrArg _ (List.drop_left' hlead)).trans List.take_length
  · rw [frameBody, ← hlen, headerRest_fields _ (by rw [List.length_append]; omega), hheader]

/-- Settles O12: the accepted bytes are taken apart, and each part is laid out again from the fields
found in it (R90, R95, R104). -/
theorem acceptedBytesAreOneFrame : Obligations.AcceptedBytesAreOneFrame := by
  intro rx body rest hread
  obtain ⟨h, p, t, hh, hp, ht, rfl, rfl, hcrc⟩ := readFrame_accepts hread
  obtain ⟨hpayload, hbody⟩ := eq_frameBody hh hp
  have hlt : leAt h 4 2 < 256 ^ 2 := leAt_lt h 4 2
  rw [hpayload]
  refine ⟨?_, hbody, by omega⟩
  rw [frameBytes, ← hbody, hcrc, le32_ofNat_leNat ht]

/-- Settles O38: the bytes gone are counted in each of the ways the bytes can begin; past the header
rest the payload and the trailer are short, or there (R161, R162). -/
theorem attemptConsumesByResult : Obligations.AttemptConsumesByResult := by
  intro rx hne
  cases leadCase rx with
  | empty => exact absurd rfl hne
  | missSync1 hx t => rw [readFrame_missSync1 hx]; exact ⟨1, by simp⟩
  | shortSync2 => rw [readFrame_shortSync2]; exact ⟨1, by simp⟩
  | missSync2 hx t => rw [readFrame_missSync2 hx]; exact ⟨2, by simp⟩
  | shortSync3 => rw [readFrame_shortSync3]; exact ⟨2, by simp⟩
  | missSync3 hx t => rw [readFrame_missSync3 hx]; exact ⟨3, by simp⟩
  | shortHlen => rw [readFrame_shortHlen]; exact ⟨3, by simp⟩
  | badHlen hx t => rw [readFrame_badHlen hx]; exact ⟨4, by simp⟩
  | shortHeader ht => rw [readFrame_shortHeader ht]; exact ⟨4, by simp [frameLead]⟩
  | @header h hh u =>
    have hlead : (frameLead ++ h).length = 28 := by rw [List.length_append, hh]; rfl
    have hn : leAt (frameLead ++ h ++ u) 8 2 = leAt h 4 2 := by
      rw [leAt_append_left _ _ _ _ (by omega)]
      rfl
    have hdrop : ∀ k, (frameLead ++ h ++ u).drop (28 + k) = u.drop k := fun k => by
      rw [← List.drop_drop, List.drop_left' hlead]
    rw [readFrame_frameLead hh, hn, List.length_append, hlead]
    by_cases hshort6 : u.length < leAt h 4 2
    · simp only [readBody, if_pos hshort6]
      exact ⟨28, by omega, by omega, (hdrop 0).symm, by simp⟩
    by_cases hshort7 : u.length < leAt h 4 2 + crcLen
    · simp only [readBody, if_neg hshort6, if_pos hshort7]
      exact ⟨28 + leAt h 4 2, by omega, by omega, (hdrop _).symm, by simp⟩
    · have hdrop32 := (hdrop (leAt h 4 2 + crcLen)).symm
      rw [show 28 + (leAt h 4 2 + crcLen) = 32 + leAt h 4 2 by simp only [crcLen]; omega] at hdrop32
      have hlen : 32 + leAt h 4 2 ≤ 28 + u.length := by
        simp only [crcLen] at hshort7
        omega
      rcases readBody_long (h := h) (Nat.not_lt.mp hshort7) with ⟨body, hread⟩ | hread
      · rw [hread]
        exact ⟨32 + leAt h 4 2, by omega, hlen, hdrop32, rfl⟩
      · rw [hread]
        exact ⟨32 + leAt h 4 2, by omega, hlen, hdrop32, rfl, rfl⟩

end Sys2Proof.Machine

/-! # Proofs: what every step keeps

A property is kept by every step when the outside's own moves, the start of POLL, the guard of
DRAIN, a step of an attempt and AGG keep it; from that the invariants of the frame buffer, the
holders and the flags. -/

namespace Sys2Proof.Machine
open Sys2Proof.Safety

/-! ## The cases of a step, as a rule for invariants -/

/-- What does not look at the schedule is kept by every step if every turn keeps it. -/
theorem step_keeps_of_turn {I : State → Prop} (slots : ∀ s l, I s → I { s with slots := l })
    (turn : ∀ sl s t, I s → TurnMove sl s t → I t) {s t : State} (hs : I s)
    (hstep : step s = .next t) : I t := by
  obtain ⟨-, ⟨-, hmove⟩ | ⟨sl, l, -, hmove⟩⟩ := step_next_cases hstep
  · exact turn none s t hs hmove
  · exact turn (some sl) _ t (slots s l hs) hmove

/-- What looks neither at the schedule, rx nor SNAP's answer is kept by every step if RESET and the
parts of a POLL keep it. -/
theorem step_keeps {I : State → Prop}
    (outside : ∀ s l r o, I s → I { s with slots := l, rx := r, snapOut := o })
    (reset : ∀ s, I s → I (resetState s)) (start : ∀ s, I s → I (pollStart s))
    (guard : ∀ s ph, s.pollPhase = .guard → ph ≠ .idle → I s → I { s with pollPhase := ph })
    (attempt : ∀ s t, s.pollPhase = .attempt → I s → AttemptMove s t → I t)
    (agg : ∀ s, s.pollPhase = .aggregate → I s → I (aggregate s)) {s t : State} (hs : I s)
    (hstep : step s = .next t) : I t := by
  refine step_keeps_of_turn (fun s l => outside s l s.rx s.snapOut) (fun sl s t hs hmove => ?_) hs
    hstep
  cases hmove with
  | blockIdle | nop | stop => exact hs
  | guardMore hp => exact guard s _ hp (by decide) hs
  | guardDone hp => exact guard s _ hp (by decide) hs
  | attempt hp hm => exact attempt s t hp hs hm
  | aggregate hp => exact agg s hp hs
  | reset => exact reset s hs
  | poll => exact start s hs
  | snap => exact outside s s.slots s.rx _ hs
  | push b => exact outside s s.slots _ s.snapOut hs
  | hostDrain n => exact outside s s.slots _ s.snapOut hs

/-! ## The frame buffer -/

/-- A stage's store inside the buffer keeps its form (R32, R66). -/
theorem stored_fb_wf {v : Bytes} {g : Stage} {s : State} (hcap : s.fbLen + v.length ≤ fbCapacity)
    (hwf : Memory.wf s.fb = true) : Memory.wf (stored v g s).fb = true :=
  Memory.writeBytes_wf s.fb s.fbLen v hcap hwf

/-- A one-byte stage's address is one of the first four. -/
theorem ByteStage.addr_lt {g g' : Stage} {want : Byte} {a : Nat} (hb : ByteStage g want a g') :
    a < 4 := by cases hb <;> decide

/-- Settles O54: only a stage's store changes fb, and every stage stores inside it. -/
theorem stepKeepsFrameBufferForm : Obligations.StepKeepsFrameBufferForm := by
  intro s t hs hstep
  refine step_keeps (I := fun s => Memory.wf s.fb = true) ?outside ?reset ?start ?guard ?attempt
    ?agg hs hstep
  case outside => exact fun _ _ _ _ h => h
  case reset => exact fun _ _ => rfl
  case start => exact fun _ h => h
  case guard => exact fun _ _ _ _ h => h
  case attempt =>
    intro s t _ hwf hm
    cases hm with
    | noFrame | start | failed | trailer => exact hwf
    | byte hb _ ha =>
      have hlt := hb.addr_lt
      exact stored_fb_wf (by simp only [List.length_singleton, fbCapacity]; omega) hwf
    | header _ ha _ hl => exact stored_fb_wf (by simp only [fbCapacity]; omega) hwf
    | payload _ ha _ _ _ hc => exact stored_fb_wf (by rwa [ha]) hwf
    | frame _ _ _ hm =>
      obtain ⟨-, -, -, hfb, -⟩ := hm.keeps
      rwa [hfb]
  case agg => exact fun s _ h => (aggregate_fb s).symm ▸ h

/-! ## The holders -/

/-- Only the commit of an accepted frame touches a record during an attempt (R191). -/
theorem AttemptMove.records {s t : State} (h : AttemptMove s t) :
    SameRecords s t ∨ (s.frStage = .chk ∧ s.crcAcc = s.rxCrc ∧
      ∃ body, fetchFrame s = some body ∧ FrameMove body s t) := by
  cases h with
  | frame hg hc hf hm => exact .inr ⟨hg, hc, _, hf, hm⟩
  | _ => exact .inl ⟨rfl, rfl, fun _ => rfl, rfl⟩

/-- The shapes of the holders are a matter of the parameters and the records alone. -/
theorem holdersOk_of_same {s t : State} (h : HoldersOk s) (hcfg : t.cfg = s.cfg)
    (hsame : SameRecords s t) : HoldersOk t where
  version := by rw [hcfg, hsame.version]; exact h.version
  hwMonitor := by rw [hcfg, hsame.hwMonitor]; exact h.hwMonitor
  fixed k := by rw [hcfg, hsame.fixed]; exact h.fixed k

/-- A store at its reset value has its shape (R50). -/
theorem storeOk_zero (cap size : Nat) : StoreOk cap size (CountedStore.zero cap size) where
  count_le := Nat.zero_le cap
  room := List.length_replicate
  sizes e he := by rw [List.eq_of_mem_replicate he, List.length_replicate]

/-- A store has its shape after a decode that the checks of R193 accept: no element is written past
it. -/
theorem storeOk_storeElems {cap elem n : Nat} {p : Bytes} {old : CountedStore}
    (h : StoreOk cap elem old) (hn : n ≤ cap) (hp : p.length = 4 + n * elem) :
    StoreOk cap elem (storeElems elem n p old) where
  count_le := hn
  room := by
    simp only [storeElems, List.length_append, List.length_map, List.length_range,
      List.length_drop, h.room]
    omega
  sizes e he := by
    simp only [storeElems, List.mem_append, List.mem_map, List.mem_range] at he
    rcases he with ⟨i, hi, rfl⟩ | he
    · have hin : elem * i + elem ≤ n * elem := by
        calc elem * i + elem = (i + 1) * elem := by ring
          _ ≤ n * elem := Nat.mul_le_mul_right elem hi
      exact slice_length _ _ _ (by simp only [countLen]; omega)
    · exact h.sizes e (List.mem_of_mem_drop he)

/-- What a holder of a kind has to be (R23, R24). -/
theorem holdersOk_iff (s : State) : HoldersOk s ↔
    (∀ k, StoreOk (countedCap s.cfg k) (countedElem k) (getCounted k s)) ∧
    ∀ k, (getFixed k s).length = fixedSize s.cfg k :=
  ⟨fun h => ⟨fun k => by cases k; exacts [h.version, h.hwMonitor], h.fixed⟩,
    fun h => ⟨h.1 .version, h.1 .hwMonitor, h.2⟩⟩

/-- The end of an attempt and the marks of COMMIT leave the other holders. -/
theorem getFixed_commitFixed_other {k j : FixedKind} (v : Bytes) (s : State) (h : j ≠ k) :
    getFixed j (commitFixed k v s) = getFixed j s := by
  rw [commitFixed, getFixed_markFresh, getFixed_setFixed_other s k j v h]

theorem getCounted_commitCounted_other {k j : CountedKind} (v : CountedStore) (s : State)
    (h : j ≠ k) : getCounted j (commitCounted k v s) = getCounted j s := by
  rw [commitCounted, getCounted_markFresh, getCounted_setCounted_other s k j v h]

theorem getFixed_commitCounted (j : FixedKind) (k : CountedKind) (v : CountedStore) (s : State) :
    getFixed j (commitCounted k v s) = getFixed j s := by
  rw [commitCounted, getFixed_markFresh, getFixed_setCounted]

theorem getCounted_commitFixed (j : CountedKind) (k : FixedKind) (v : Bytes) (s : State) :
    getCounted j (commitFixed k v s) = getCounted j s := by
  rw [commitFixed, getCounted_markFresh, getCounted_setFixed]

/-- A frame instruction keeps every holder's shape (R192, R193). -/
theorem FrameMove.holdersOk {body : Bytes} {s t : State} (hm : FrameMove body s t)
    (h : HoldersOk s) : HoldersOk t := by
  obtain ⟨hcounted, hfixed⟩ := (holdersOk_iff s).mp h
  cases hm with
  | raised | untracked => exact holdersOk_of_same h rfl ⟨rfl, rfl, fun _ => rfl, rfl⟩
  | fixed k hid hlen =>
    refine (holdersOk_iff _).mpr ⟨fun j => ?_, fun j => ?_⟩
    · rw [getCounted_endAttempt, getCounted_commitFixed, endAttempt_cfg, commitFixed_cfg]
      exact hcounted j
    · rw [getFixed_endAttempt, endAttempt_cfg, commitFixed_cfg]
      by_cases hj : j = k
      · rw [hj, getFixed_commitFixed_same, hlen]
      · rw [getFixed_commitFixed_other _ s hj, hfixed j]
  | counted k hid hcap hlen =>
    refine (holdersOk_iff _).mpr ⟨fun j => ?_, fun j => ?_⟩
    · rw [getCounted_endAttempt, endAttempt_cfg, commitCounted_cfg]
      by_cases hj : j = k
      · rw [hj, getCounted_commitCounted_same]
        exact storeOk_storeElems (hcounted k) hcap hlen
      · rw [getCounted_commitCounted_other _ s hj]
        exact hcounted j
    · rw [getFixed_endAttempt, getFixed_commitCounted, endAttempt_cfg, commitCounted_cfg]
      exact hfixed j

/-- RESET gives every holder its shape (R50). -/
theorem holdersOk_resetState (s : State) : HoldersOk (resetState s) where
  version := storeOk_zero _ _
  hwMonitor := storeOk_zero _ _
  fixed k := by cases k <;> exact List.length_replicate

/-- Settles O55: only RESET and COMMIT write a holder, and both keep its shape. -/
theorem stepKeepsHolderShapes : Obligations.StepKeepsHolderShapes := by
  intro s t hs hstep
  refine step_keeps (I := HoldersOk) ?outside ?reset ?start ?guard ?attempt ?agg hs hstep
  case outside => exact fun _ _ _ _ h => holdersOk_of_same h rfl ⟨rfl, rfl, fun _ => rfl, rfl⟩
  case reset => exact fun s _ => holdersOk_resetState s
  case start => exact fun _ h => holdersOk_of_same h rfl ⟨rfl, rfl, fun _ => rfl, rfl⟩
  case guard => exact fun _ _ _ _ h => holdersOk_of_same h rfl ⟨rfl, rfl, fun _ => rfl, rfl⟩
  case attempt =>
    intro s t _ h hm
    rcases hm.records with hsame | ⟨-, -, body, -, hframe⟩
    · obtain ⟨hcfg, -⟩ := hm.keeps
      exact holdersOk_of_same h hcfg hsame
    · exact hframe.holdersOk h
  case agg =>
    exact fun s _ h => holdersOk_of_same h (aggregate_cfg s)
      ⟨aggregate_version s, aggregate_hwMonitor s, aggregate_getFixed s, aggregate_hdgLast s⟩

/-! ## The flags -/

/-- While `valid` is false there is nothing for it to mean. -/
theorem validOk_of_not_valid {s : State} (h : s.valid = false) : ValidOk s := by
  have hvac : ∀ {p : Prop}, s.valid = true → p := fun hv => absurd (h ▸ hv) (by decide)
  exact ⟨fun _ => h, hvac, hvac, hvac, hvac, hvac, hvac, hvac⟩

/-- When `valid` is true no earlier reason applies (R241). -/
theorem aggregate_reason_of_valid {s : State} (h : (aggregate s).valid = true) :
    (aggregate s).reason = .none := by
  obtain ⟨herr, hant, hint, hbest, hheading, htype⟩ := (aggregate_valid_iff s).mp h
  have hfresh : isFresh .bestPos s = true := ((bestAccepted_eq_true_iff s).mp hbest).1
  have hhfresh : headingFresh s = true := by
    simp only [headingAccepted, Bool.and_eq_true] at hheading
    exact hheading.1
  simp [aggregate_reason_noFault s herr, hant, hint, hfresh, hhfresh, hbest, hheading, htype]

/-- `valid` means what AGG derived it from (R238, R241). -/
theorem validOk_aggregate (s : State) : ValidOk (aggregate s) where
  running hp := absurd (aggregate_pollPhase s) hp
  no_error h := by
    obtain ⟨herr, -⟩ := (aggregate_valid_iff s).mp h
    rw [aggregate_errorWord, herr]
  no_antenna h := by
    obtain ⟨-, hant, -⟩ := (aggregate_valid_iff s).mp h
    rw [aggregate_antFault, hant]
  no_integrity h := by
    obtain ⟨-, -, hint, -⟩ := (aggregate_valid_iff s).mp h
    rw [aggregate_integFault, hint]
  best h := by
    obtain ⟨herr, -, -, hbest, -⟩ := (aggregate_valid_iff s).mp h
    rw [aggregate_bestAccepted, aggregate_bestOk_noFault s herr]
    exact ⟨hbest, hbest⟩
  heading h := by
    obtain ⟨herr, -, -, -, hheading, -⟩ := (aggregate_valid_iff s).mp h
    rw [aggregate_headingAccepted, aggregate_hdgOk_noFault s herr]
    exact ⟨hheading, hheading⟩
  type h := by
    obtain ⟨-, -, -, -, -, htype⟩ := (aggregate_valid_iff s).mp h
    rw [aggregate_typeAccepted, htype]
  no_reason h := aggregate_reason_of_valid h

/-- Settles O57: `valid` is false from POLL to AGG, and AGG derives it. -/
theorem stepKeepsValidMeaning : Obligations.StepKeepsValidMeaning := by
  intro s t hs hstep
  refine step_keeps (I := ValidOk) ?outside ?reset ?start ?guard ?attempt ?agg hs hstep
  case outside =>
    exact fun s _ _ _ h => ⟨h.running, h.no_error, h.no_antenna, h.no_integrity, h.best, h.heading,
      h.type, h.no_reason⟩
  case reset => exact fun _ _ => validOk_of_not_valid rfl
  case start => exact fun _ _ => validOk_of_not_valid rfl
  case guard => exact fun s ph hp _ h => validOk_of_not_valid (h.running (by simp [hp]))
  case attempt =>
    intro s t hp h hm
    obtain ⟨-, -, -, hvalid, -⟩ := hm.keeps
    exact validOk_of_not_valid (hvalid.trans (h.running (by simp [hp])))
  case agg => exact fun s _ _ => validOk_aggregate s

/-- While a POLL runs, `jamming` and `spoofing` need not follow the record. -/
theorem flagsFollowRecord_of_running {s : State} (h : s.pollPhase ≠ .idle) : FlagsFollowRecord s :=
  fun hp => absurd hp h

/-- A zero receiver-status record shows neither jamming nor spoofing. -/
theorem flagsFollowRecord_resetState (s : State) : FlagsFollowRecord (resetState s) := by
  have hrec : (resetState s).rxStatus = State.reset.rxStatus := rfl
  have hjamming : jammingSeen State.reset = false := by decide
  have hspoofing : spoofingSeen State.reset = false := by decide
  intro _ _
  rw [jammingSeen_congr hrec, spoofingSeen_congr hrec, hjamming, hspoofing]
  exact ⟨rfl, rfl⟩

/-- AGG derives both, but where a device fault holds them (R239, R240, R233). -/
theorem flagsFollowRecord_aggregate (s : State) : FlagsFollowRecord (aggregate s) := by
  intro _ hderive
  rw [aggregate_errorWord, aggregate_cfg] at hderive
  have hnot : ¬ (errorWord s ≠ 0 ∧ s.cfg.abortSkipsFlags = true) := by
    rintro ⟨herr, habort⟩
    rcases hderive with h | h
    · exact herr h
    · rw [h] at habort
      exact absurd habort (by decide)
  rw [aggregate_jamming, aggregate_spoofing, if_neg hnot, if_neg hnot, aggregate_jammingSeen,
    aggregate_spoofingSeen]
  exact ⟨rfl, rfl⟩

/-- `hdg_last` and the fresh bits say as much as before when neither changes. -/
theorem headingLastOk_of_same {s t : State} (h : HeadingLastOk s) (hfresh : t.fresh = s.fresh)
    (hlast : t.hdgLast = s.hdgLast) : HeadingLastOk t := by
  simpa only [HeadingLastOk, isFresh, hfresh, hlast] using h

/-- With no kind fresh there is nothing for `hdg_last` to name. -/
theorem headingLastOk_of_none_fresh {s : State} (h : s.fresh = 0#8) : HeadingLastOk s := by
  simp [HeadingLastOk, isFresh, h]

/-- A fresh bit after COMMIT is the kind's own or was set before (R191). -/
theorem isFresh_markFresh (j k : Kind) (s : State) :
    isFresh j (markFresh k s) = (isFresh j s || decide (j = k)) := by
  rw [isFresh, isFresh, markFresh_fresh, BitVec.getLsbD_or]
  congr 1
  cases j <;> cases k <;> decide

/-- COMMIT's marks keep `hdg_last` with the heading committed last (R25, R191). -/
theorem headingLastOk_markFresh {k : Kind} {s : State} (h : HeadingLastOk s) :
    HeadingLastOk (markFresh k s) := by
  obtain ⟨hmulti, hdual⟩ := h
  simp only [HeadingLastOk, isFresh_markFresh, markFresh_hdgLast]
  cases k <;> simp_all

theorem FrameMove.headingLastOk {body : Bytes} {s t : State} (hm : FrameMove body s t)
    (h : HeadingLastOk s) : HeadingLastOk t := by
  cases hm with
  | raised | untracked => exact headingLastOk_of_same h rfl rfl
  | fixed k =>
    have hset : HeadingLastOk (setFixed k (framePayload body) s) :=
      headingLastOk_of_same h (setFixed_fresh ..) (setFixed_hdgLast ..)
    exact headingLastOk_markFresh (k := fixedToKind k) hset
  | counted k =>
    have hset : HeadingLastOk (setCounted k (storeElems (countedElem k)
        (payloadCount (framePayload body)) (framePayload body) (getCounted k s)) s) :=
      headingLastOk_of_same h (setCounted_fresh ..) (setCounted_hdgLast ..)
    exact headingLastOk_markFresh (k := countedToKind k) hset

theorem AttemptMove.headingLastOk {s t : State} (hm : AttemptMove s t) (h : HeadingLastOk s) :
    HeadingLastOk t := by
  cases hm with
  | frame _ _ _ hm => exact hm.headingLastOk h
  | _ => exact headingLastOk_of_same h rfl rfl

/-- Settles O58: AGG derives the two flags from the record, which nothing but RESET writes between
POLLs; COMMIT sets a heading's fresh bit and `hdg_last` together, and POLL clears the fresh bits. -/
theorem stepKeepsFlagMeaning : Obligations.StepKeepsFlagMeaning := by
  intro s t hflags hlast hstep
  refine step_keeps (I := fun s => FlagsFollowRecord s ∧ HeadingLastOk s) ?outside ?reset ?start
    ?guard ?attempt ?agg ⟨hflags, hlast⟩ hstep
  case outside => exact fun _ _ _ _ h => h
  case reset =>
    exact fun s _ => ⟨flagsFollowRecord_resetState s, headingLastOk_of_none_fresh rfl⟩
  case start =>
    exact fun s _ => ⟨flagsFollowRecord_of_running (by simp), headingLastOk_of_none_fresh rfl⟩
  case guard => exact fun s ph _ hph h => ⟨flagsFollowRecord_of_running hph, h.2⟩
  case attempt =>
    intro s t hp h hm
    refine ⟨flagsFollowRecord_of_running ?_, hm.headingLastOk h.2⟩
    obtain ⟨-, -, -, -, -, -, ⟨-, hphase⟩ | hphase⟩ := hm.keeps <;> simp [hphase, hp]
  case agg =>
    exact fun s _ h => ⟨flagsFollowRecord_aggregate s,
      headingLastOk_of_same h.2 (aggregate_fresh s) (aggregate_hdgLast s)⟩

end Sys2Proof.Machine

/-! # Proofs: the Frame Reader's registers (R30 to R35, R161, R162)

What a stage's store makes of the bytes held; that every step leaves the registers as the next stage
needs them; and that no stage faults on such registers. -/

namespace Sys2Proof.Machine
open Sys2Proof.Safety

/-! ## The bytes held -/

theorem readerOk_attempt_iff {s : State} (hp : s.pollPhase = .attempt) :
    ReaderOk s ↔ StageOk s.frStage s ∧ (s.frStage = .idle → s.rx ≠ []) := by
  simp only [ReaderOk, hp]

theorem readerOk_outside_iff {s : State} (hp : s.pollPhase ≠ .attempt) :
    ReaderOk s ↔ s.frStage = .idle := by
  cases hph : s.pollPhase <;> simp_all [ReaderOk]

/-- Outside an attempt the stage is S_IDLE (R30). -/
theorem readerOk_of_idle {s : State} (hp : s.pollPhase ≠ .attempt) (hidle : s.frStage = .idle) :
    ReaderOk s := (readerOk_outside_iff hp).mpr hidle

/-- Inside an attempt, past its start. -/
theorem readerOk_of_stage {s : State} {g : Stage} (hp : s.pollPhase = .attempt) (hg : s.frStage = g)
    (hne : g ≠ .idle) (h : StageOk g s) : ReaderOk s :=
  (readerOk_attempt_iff hp).mpr ⟨hg ▸ h, fun hidle => absurd (hg ▸ hidle) hne⟩

/-- The registers of a stage are `consumed`, fb and `crc_acc`; rx enters only as not empty. -/
theorem stageOk_congr {s t : State} {g : Stage} (h : StageOk g s) (hrx : s.rx ≠ [] → t.rx ≠ [])
    (hcons : t.consumed = s.consumed) (hfb : t.fb = s.fb) (hlen : t.fbLen = s.fbLen)
    (hcrc : t.crcAcc = s.crcAcc) : StageOk g t := by
  have hkeep : ∀ {lead x n}, Holds s lead n x → Holds t lead n x := fun h =>
    ⟨hlen.trans h.fbLen, by rw [hfb]; exact h.bytes, h.lead, hcrc.trans h.crc⟩
  cases g with
  | idle => trivial
  | sync1 =>
    obtain ⟨hne, hzero, hholds⟩ := h
    exact ⟨hrx hne, hcons.trans hzero, hkeep hholds⟩
  | sync2 | sync3 | hlen | hdr | pay =>
    obtain ⟨hcount, x, hholds⟩ := h
    exact ⟨hcons.trans hcount, x, hkeep hholds⟩
  | crc | chk =>
    obtain ⟨hcount, x, hholds⟩ := h
    exact ⟨by rw [hcons, hlen, hcount], x, hkeep hholds⟩

/-- The same for the whole invariant. -/
theorem readerOk_congr {s t : State} (h : ReaderOk s) (hp : t.pollPhase = s.pollPhase)
    (hg : t.frStage = s.frStage) (hrx : s.rx ≠ [] → t.rx ≠ []) (hcons : t.consumed = s.consumed)
    (hfb : t.fb = s.fb) (hlen : t.fbLen = s.fbLen) (hcrc : t.crcAcc = s.crcAcc) : ReaderOk t := by
  by_cases hph : s.pollPhase = .attempt
  · obtain ⟨hstage, hne⟩ := (readerOk_attempt_iff hph).mp h
    refine (readerOk_attempt_iff (hp.trans hph)).mpr ⟨?_, fun hidle => hrx (hne (hg ▸ hidle))⟩
    rw [hg]
    exact stageOk_congr hstage hrx hcons hfb hlen hcrc
  · exact readerOk_of_idle (hp ▸ hph) (hg.trans ((readerOk_outside_iff hph).mp h))

/-- Bytes that begin with `lead` and are no longer are `lead`. -/
theorem holds_eq_lead {s : State} {lead b : Bytes} (h : Holds s lead lead.length b) : b = lead :=
  (h.lead.eq_of_length (Memory.readBytes_length _ _ _ _ h.bytes).symm).symm

/-- A stage's store appends its bytes to those held, and to the checksum (R66, R134). -/
theorem holds_stored {s : State} {lead lead' b : Bytes} {n : Nat} (h : Holds s lead n b) (v : Bytes)
    (g : Stage) (hlead : lead' <+: b ++ v) :
    Holds (stored v g s) lead' (n + v.length) (b ++ v) where
  fbLen := by rw [← h.fbLen]; rfl
  bytes := by
    have hbelow : Memory.readBytes (Memory.writeBytes s.fb n v) 0 n = some b := by
      rw [Memory.readBytes_writeBytes_below _ _ _ _ _ (Nat.zero_add n).le, h.bytes]
    have hsame : Memory.readBytes (Memory.writeBytes s.fb n v) (0 + n) v.length = some v := by
      rw [Nat.zero_add]
      exact Memory.readBytes_writeBytes_same _ _ _
    have hfb : (stored v g s).fb = Memory.writeBytes s.fb n v := by rw [← h.fbLen]; rfl
    rw [hfb]
    exact Memory.readBytes_append _ _ _ _ _ _ hbelow hsame
  lead := hlead
  crc := by
    rw [crc32, crcFold_append, ← crc32, ← h.crc]
    rfl

/-- The two bytes of `pay_len` inside the 28 bytes held (R157). -/
theorem fbRead_of_holds {s : State} {lead b : Bytes} {n : Nat} (h : Holds s lead n b)
    (hn : 28 ≤ n) : fbRead 8 2 s = some (slice b 8 2) := by
  rw [fbRead, if_pos (by rw [h.fbLen]; omega)]
  exact Memory.readBytes_slice s.fb 0 n 8 2 b h.bytes (by omega)

/-- The payload length is read from bytes that later ones do not change. -/
theorem frameLen_append {b : Bytes} (v : Bytes) (hb : 28 ≤ b.length) :
    frameLen (b ++ v) = frameLen b := leAt_append_left b v 8 2 (by omega)

theorem frameLen_lt (b : Bytes) : frameLen b < 65536 := leAt_lt b 8 2

/-- The whole frame is fetched from a buffer that holds it (R160). -/
theorem fetchFrame_of_holds {s : State} {b : Bytes}
    (h : Holds s frameLead (headLen + frameLen b) b) : fetchFrame s = some b :=
  fetchFrame_of_readBytes h.fbLen (by rw [h.fbLen]; exact h.bytes)

/-- The comparison of S_CHK fails (R159, R160). -/
theorem stageChk_mismatch {s : State} (h : s.crcAcc ≠ s.rxCrc) :
    stageChk s = .next (raise .checksumMismatch 8 s) := if_pos h

/-- It holds, and the frame fetched is executed (R160, R190). -/
theorem stageChk_accepts {s : State} {body : Bytes} (h : s.crcAcc = s.rxCrc)
    (hf : fetchFrame s = some body) : stageChk s = exec (frameInstr s.cfg body) s := by
  rw [stageChk, if_neg (not_not_intro h), hf]

/-! ## Every step keeps the registers -/

/-- The four one-byte stages: the wanted byte extends the lead (R152 to R155). -/
theorem stageOk_byte {g g' : Stage} {want : Byte} {a : Nat} {s : State}
    (hb : ByteStage g want a g') (h : StageOk g s) : StageOk g' (stored [want] g' s) := by
  cases hb with
  | sync1 =>
    obtain ⟨-, hcons, hholds⟩ := h
    exact ⟨by simp [stored, hcons], _, holds_stored hholds [Sys2Proof.sync1] _ (List.prefix_refl _)⟩
  | sync2 =>
    obtain ⟨hcons, b, hholds⟩ := h
    obtain rfl := holds_eq_lead hholds
    exact ⟨by simp [stored, hcons], _, holds_stored hholds [Sys2Proof.sync2] _ (List.prefix_refl _)⟩
  | sync3 =>
    obtain ⟨hcons, b, hholds⟩ := h
    obtain rfl := holds_eq_lead hholds
    exact ⟨by simp [stored, hcons], _, holds_stored hholds [Sys2Proof.sync3] _ (List.prefix_refl _)⟩
  | hlen =>
    obtain ⟨hcons, b, hholds⟩ := h
    obtain rfl := holds_eq_lead hholds
    exact ⟨by simp [stored, hcons], _, holds_stored hholds [hdrLenConst] _ (List.prefix_refl _)⟩

/-- The header rest completes the 28 bytes before the payload (R156). -/
theorem stageOk_header {h : Bytes} {s : State} (hh : h.length = 24) (hs : StageOk .hdr s) :
    StageOk .pay (stored h .pay s) := by
  obtain ⟨hcons, b, hholds⟩ := hs
  have hnext := holds_stored hholds h .pay (hholds.lead.trans (List.prefix_append b h))
  rw [hh] at hnext
  exact ⟨by simp [stored, hcons, hh, headLen], _, hnext⟩

/-- A payload of the declared length completes the bytes before the trailer (R157). -/
theorem stageOk_payload {l p : Bytes} {s : State} (hl : fbRead 8 2 s = some l)
    (hp : p.length = leNat l) (hs : StageOk .pay s) : StageOk .crc (stored p .crc s) := by
  obtain ⟨hcons, b, hholds⟩ := hs
  have hb : b.length = 28 := Memory.readBytes_length _ _ _ _ hholds.bytes
  rw [fbRead_of_holds hholds (Nat.le_refl 28)] at hl
  obtain rfl := Option.some.inj hl
  have hlen : p.length = frameLen (b ++ p) := by rw [frameLen_append p (by omega), hp]; rfl
  have hnext := holds_stored hholds p .crc (hholds.lead.trans (List.prefix_append b p))
  rw [hlen] at hnext
  exact ⟨by simp [stored, hcons, hholds.fbLen], _, hnext⟩

/-- A step of an attempt leaves the registers as the next stage needs them, or ends the attempt. -/
theorem readerOk_attemptMove {s t : State} (hp : s.pollPhase = .attempt)
    (h : StageOk s.frStage s) (hm : AttemptMove s t) : ReaderOk t := by
  cases hm with
  | noFrame | failed => exact readerOk_of_idle (by simp [raise]) rfl
  | start hg hrx =>
    exact readerOk_of_stage (g := .sync1) hp rfl (by decide)
      ⟨hrx, rfl, rfl, rfl, List.prefix_refl _, rfl⟩
  | @byte g g' want a hb hg ha hrx =>
    exact readerOk_of_stage (g := g') hp rfl (by cases hb <;> decide) (stageOk_byte hb (hg ▸ h))
  | header hg ha hrx hl =>
    exact readerOk_of_stage (g := .pay) hp rfl (by decide) (stageOk_header hl (hg ▸ h))
  | payload hg ha hn hrx hl hc =>
    exact readerOk_of_stage (g := .crc) hp rfl (by decide) (stageOk_payload hn hl (hg ▸ h))
  | trailer hg hrx hl =>
    rw [hg] at h
    obtain ⟨hcons, b, hholds⟩ := h
    exact readerOk_of_stage (g := .chk) hp rfl (by decide)
      ⟨congrArg (· + 4) hcons, b, hholds.fbLen, hholds.bytes, hholds.lead, hholds.crc⟩
  | frame hg hc hf hm =>
    obtain ⟨-, -, -, -, hstage, hphase, -⟩ := hm.keeps
    exact readerOk_of_idle (by simp [hphase]) hstage

/-- Settles O56: inside an attempt each stage hands its registers to the next; outside one the stage
is S_IDLE, and the guard of DRAIN begins an attempt only on a byte of rx. -/
theorem stepKeepsReaderRegisters : Obligations.StepKeepsReaderRegisters := by
  intro s t
  refine step_keeps_of_turn (fun s l h => readerOk_congr h rfl rfl id rfl rfl rfl rfl)
    (fun sl s t h hm => ?_)
  have houtside : ∀ {ph}, s.pollPhase = ph → ph ≠ .attempt → s.frStage = .idle :=
    fun hp hne => (readerOk_outside_iff (hp ▸ hne)).mp h
  cases hm with
  | blockIdle | nop | stop => exact h
  | guardMore hp hrx =>
    have hidle := houtside hp (by decide)
    exact (readerOk_attempt_iff (s := { s with pollPhase := .attempt }) rfl).mpr
      ⟨by simp only [hidle]; trivial, fun _ => hrx⟩
  | guardDone hp => exact readerOk_of_idle (by simp) (houtside hp (by decide))
  | attempt hp hm => exact readerOk_attemptMove hp ((readerOk_attempt_iff hp).mp h).1 hm
  | aggregate hp =>
    exact readerOk_of_idle (by simp) ((aggregate_frStage s).trans (houtside hp (by decide)))
  | reset => exact readerOk_of_idle (by simp [resetState, State.resetOf]) rfl
  | poll _ hp => exact readerOk_of_idle (by simp) (houtside hp (by decide))
  | snap _ hp => exact readerOk_of_idle (by simp [hp]) (houtside hp (by decide))
  | hostDrain _ _ hp => exact readerOk_of_idle (by simp [hp]) (houtside hp (by decide))
  | push b => exact readerOk_congr h rfl rfl (by simp) rfl rfl rfl rfl

/-! ## No stage faults (R300, 93 part 1) -/

theorem next_ne_fault (t : State) (f : Fault) : (.next t : Result) ≠ .fault f := nofun

theorem refused_ne_fault (r : Refusal) (f : Fault) : (.refused r : Result) ≠ .fault f := nofun

/-- A store at `fb_len` inside the buffer is no fault (R66). -/
theorem store_no_fault {a : Nat} {v : Bytes} {g : Stage} {s : State} {f : Fault} (ha : s.fbLen = a)
    (hcap : a + v.length ≤ fbCapacity) : store a v g s ≠ .fault f := by
  rw [store_ok ha hcap]
  exact next_ne_fault _ _

theorem matchByte_no_fault {want : Byte} {e : ErrKind} {stage a : Nat} {g : Stage} {b : Bytes}
    {s : State} {f : Fault} (ha : s.fbLen = a) (hcap : a < fbCapacity) :
    matchByte want e stage a g b s ≠ .fault f := by
  rcases matchByte_cases want e stage a g b s with ⟨-, h⟩ | ⟨-, h⟩
  · rw [h]; exact next_ne_fault _ _
  · rw [h]; exact store_no_fault ha hcap

theorem readThen_no_fault {stage n : Nat} {s : State} {k : Bytes → State → Result} {f : Fault}
    (hk : n ≤ s.rx.length → k (s.rx.take n) (rxPop n s) ≠ .fault f) :
    readThen stage n s k ≠ .fault f := by
  rcases readThen_cases stage n s k with ⟨-, h⟩ | ⟨hn, h⟩
  · rw [h]; exact next_ne_fault _ _
  · rw [h]; exact hk hn

/-- A stage on registers that are as it needs them is no fault. -/
theorem attemptStep_no_fault {s : State} {f : Fault} (h : StageOk s.frStage s) :
    attemptStep s ≠ .fault f := by
  cases hg : s.frStage <;> simp only [attemptStep, hg] <;> rw [hg] at h
  case idle => exact next_ne_fault _ _
  case sync1 =>
    obtain ⟨hrx, -, hholds⟩ := h
    have hsome : ¬ rxAvail s < 1 := by
      simpa [rxAvail, Nat.lt_one_iff] using hrx
    rw [stageSync1, if_neg hsome]
    exact matchByte_no_fault hholds.fbLen (by decide)
  case sync2 | sync3 | hlen =>
    obtain ⟨-, b, hholds⟩ := h
    exact readThen_no_fault fun _ => matchByte_no_fault hholds.fbLen (by decide)
  case hdr =>
    obtain ⟨-, b, hholds⟩ := h
    refine readThen_no_fault fun hn => store_no_fault hholds.fbLen ?_
    rw [List.length_take, Nat.min_eq_left hn]
    decide
  case pay =>
    obtain ⟨-, b, hholds⟩ := h
    rw [stagePay, fbRead_of_holds hholds (Nat.le_refl 28)]
    refine readThen_no_fault fun hn => store_no_fault hholds.fbLen ?_
    have hlt : leNat (slice b 8 2) < 65536 := frameLen_lt b
    rw [List.length_take, Nat.min_eq_left hn]
    simp only [headLen, fbCapacity]
    omega
  case crc => exact readThen_no_fault fun _ => next_ne_fault _ _
  case chk =>
    obtain ⟨-, b, hholds⟩ := h
    by_cases hcrc : s.crcAcc = s.rxCrc
    · obtain ⟨t, ht, -⟩ := exec_frameInstr s b
      rw [stageChk_accepts hcrc (fetchFrame_of_holds hholds), ht]
      exact next_ne_fault _ _
    · rw [stageChk_mismatch hcrc]
      exact next_ne_fault _ _

/-- No operation at the ports faults. -/
theorem exec_decodePort_no_fault (a : PortAccess) (s : State) (f : Fault) :
    exec (decodePort a) s ≠ .fault f := by
  cases a with
  | snapshotRead => exact whenIdle_no_fault
  | receiveWrite b => exact next_ne_fault _ _
  | command code =>
    rw [decodePort]
    split
    · exact next_ne_fault _ _
    split
    · exact whenIdle_no_fault
    split <;> exact whenIdle_no_fault

theorem blockTurn_no_fault {s : State} {f : Fault} (h : ReaderOk s) : blockTurn s ≠ .fault f := by
  rw [blockTurn]
  split
  · exact next_ne_fault _ _
  · exact next_ne_fault _ _
  · next hp => exact attemptStep_no_fault ((readerOk_attempt_iff hp).mp h).1
  · exact next_ne_fault _ _

/-- Settles O60: the operations at the ports have no fault, and the stages find their registers as
they need them. -/
theorem noStepFaults : Obligations.NoStepFaults := by
  intro s f h
  rw [step]
  split; swap
  · exact refused_ne_fault _ _
  rcases turn_cases s with ⟨-, hturn⟩ | ⟨sl, l, -, hturn⟩
  · rw [hturn]
    exact blockTurn_no_fault h
  · rw [hturn]
    cases sl with
    | quiet => exact blockTurn_no_fault (readerOk_congr h rfl rfl id rfl rfl rfl rfl)
    | port a => exact exec_decodePort_no_fault a _ f
    | hostDrain n => exact whenIdle_no_fault

end Sys2Proof.Machine

/-! # Proofs: what a step may change, and the state after reset

The parameters, rx and the holders through the cases of a step; and the invariants' base case. -/

namespace Sys2Proof.Machine
open Sys2Proof.Safety

/-- Settles O44: no part of a step writes the parameters (R20, R333). -/
theorem stepKeepsTheParameters : Obligations.StepKeepsTheParameters := by
  intro s t hstep
  refine step_keeps (I := fun t => t.cfg = s.cfg) ?outside ?reset ?start ?guard ?attempt ?agg rfl
    hstep
  case outside => exact fun _ _ _ _ h => h
  case reset => exact fun _ h => h
  case start => exact fun _ h => h
  case guard => exact fun _ _ _ _ h => h
  case attempt =>
    intro u t _ h hm
    obtain ⟨hcfg, -⟩ := hm.keeps
    exact hcfg.trans h
  case agg => exact fun u _ h => (aggregate_cfg u).trans h

/-- A turn takes bytes from the front of rx, or is a PUSH and adds one at its end (R62, R276). -/
theorem turnMove_rx {sl : Option Slot} {s t : State} (h : TurnMove sl s t) :
    (∃ n, t.rx = s.rx.drop n) ∨
    ∃ b, sl = some (.port (.receiveWrite b)) ∧ t.rx = s.rx ++ [b] := by
  cases h with
  | attempt _ hm =>
    obtain ⟨-, -, hrx, -⟩ := hm.keeps
    exact .inl hrx
  | aggregate => exact .inl ⟨0, aggregate_rx s⟩
  | hostDrain n => exact .inl ⟨n, rfl⟩
  | push b hsl => exact .inr ⟨b, hsl, rfl⟩
  | _ => exact .inl ⟨0, rfl⟩

/-- Settles O45: the turn takes bytes from the front of rx, but for a PUSH, which is the step's
slot. -/
theorem rxKeepsItsOrder : Obligations.RxKeepsItsOrder := by
  intro s t hstep
  obtain ⟨-, ⟨-, hmove⟩ | ⟨sl, l, hslots, hmove⟩⟩ := step_next_cases hstep
  all_goals rcases turnMove_rx hmove with ⟨n, hrx⟩ | ⟨b, hsl, hrx⟩
  · exact ⟨n, [], by rw [hrx, List.append_nil], .inl rfl⟩
  · cases hsl
  · exact ⟨n, [], by rw [hrx, List.append_nil], .inl rfl⟩
  · cases hsl
    exact ⟨0, [b], hrx, .inr ⟨b, l, hslots, rfl, rfl⟩⟩

/-! ## The writers of a holder (R21, R191) -/

/-- A turn leaves the records, is a RESET, or is the frame instruction that S_CHK executes. -/
theorem turnMove_records {sl : Option Slot} {s t : State} (h : TurnMove sl s t) :
    SameRecords s t ∨ (sl = some (.port (.command 1#2)) ∧ s.pollPhase = .idle) ∨
    (s.pollPhase = .attempt ∧ s.frStage = .chk ∧ s.crcAcc = s.rxCrc ∧
      ∃ body, fetchFrame s = some body ∧ FrameMove body s t) := by
  cases h with
  | reset hsl hp => exact .inr (.inl ⟨hsl, hp⟩)
  | attempt hp hm => exact hm.records.imp id fun h => .inr ⟨hp, h⟩
  | aggregate =>
    exact .inl ⟨aggregate_version s, aggregate_hwMonitor s, aggregate_getFixed s,
      aggregate_hdgLast s⟩
  | _ => exact .inl ⟨rfl, rfl, fun _ => rfl, rfl⟩

/-- The same for a step: the slot of a RESET is the first one. -/
theorem step_records {s t : State} (h : step s = .next t) :
    SameRecords s t ∨ (s.pollPhase = .idle ∧ ∃ l, s.slots = .port (.command 1#2) :: l) ∨
    (s.pollPhase = .attempt ∧ s.frStage = .chk ∧ s.crcAcc = s.rxCrc ∧
      ∃ body l, fetchFrame s = some body ∧ FrameMove body { s with slots := l } t) := by
  obtain ⟨-, ⟨-, hmove⟩ | ⟨sl, l, hslots, hmove⟩⟩ := step_next_cases h
  all_goals rcases turnMove_records hmove with hsame | ⟨hsl, hp⟩ | ⟨hp, hg, hc, body, hf, hm⟩
  · exact .inl hsame
  · cases hsl
  · exact .inr (.inr ⟨hp, hg, hc, body, s.slots, hf, hm⟩)
  · exact .inl ⟨hsame.version, hsame.hwMonitor, hsame.fixed, hsame.hdgLast⟩
  · cases hsl
    exact .inr (.inl ⟨hp, l, hslots⟩)
  · exact .inr (.inr ⟨hp, hg, hc, body, l, hf, hm⟩)

/-- The commit of a kind sets its fresh bit (R191). -/
theorem isFresh_markFresh_same (k : Kind) (s : State) : isFresh k (markFresh k s) = true := by
  simp [isFresh_markFresh]

/-- A frame instruction that changes a fixed-size holder is the commit of an accepted frame of its
kind (R192). -/
theorem FrameMove.writes_fixed {body : Bytes} {s t : State} {k : FixedKind}
    (hm : FrameMove body s t) (hne : getFixed k t ≠ getFixed k s) :
    frameId body = kindMsgId s.cfg (fixedToKind k) ∧
    (framePayload body).length = fixedSize s.cfg k ∧ getFixed k t = framePayload body ∧
    isFresh (fixedToKind k) t = true := by
  cases hm with
  | raised | untracked => exact absurd (getFixed_endAttempt s k _) hne
  | counted j =>
    exact absurd (by rw [getFixed_endAttempt, getFixed_commitCounted]) hne
  | fixed j hid hlen =>
    by_cases hj : k = j
    · subst hj
      exact ⟨hid, hlen, getFixed_endAttempt_commitFixed _ _ _ _, isFresh_markFresh_same _ _⟩
    · exact absurd (by rw [getFixed_endAttempt, getFixed_commitFixed_other _ s hj]) hne

/-- The same for a count-prefixed holder (R193). -/
theorem FrameMove.writes_counted {body : Bytes} {s t : State} {k : CountedKind}
    (hm : FrameMove body s t) (hne : getCounted k t ≠ getCounted k s) :
    frameId body = kindMsgId s.cfg (countedToKind k) ∧
    payloadCount (framePayload body) ≤ countedCap s.cfg k ∧
    (framePayload body).length = 4 + payloadCount (framePayload body) * countedElem k ∧
    getCounted k t = storeElems (countedElem k) (payloadCount (framePayload body))
      (framePayload body) (getCounted k s) ∧
    isFresh (countedToKind k) t = true := by
  cases hm with
  | raised | untracked => exact absurd (getCounted_endAttempt s k _) hne
  | fixed j =>
    exact absurd (by rw [getCounted_endAttempt, getCounted_commitFixed]) hne
  | counted j hid hcap hlen =>
    by_cases hj : k = j
    · subst hj
      exact ⟨hid, hcap, hlen, getCounted_endAttempt_commitCounted _ _ _ _,
        isFresh_markFresh_same _ _⟩
    · exact absurd (by rw [getCounted_endAttempt, getCounted_commitCounted_other _ s hj]) hne

/-- Settles O46: of the three things a step can be to the records, RESET and the frame instruction
of S_CHK can change one, and the latter only by its own kind's commit. -/
theorem holderHasOneWriter : Obligations.HolderHasOneWriter := by
  refine ⟨fun s t k hstep hne => ?_, fun s t k hstep hne => ?_⟩
  · rcases step_records hstep with hsame | hreset | ⟨hp, hg, hc, body, l, hf, hm⟩
    · exact absurd (hsame.fixed k) hne
    · exact .inl hreset
    · exact .inr ⟨hp, hg, hc, body, hf, hm.writes_fixed hne⟩
  · rcases step_records hstep with hsame | hreset | ⟨hp, hg, hc, body, l, hf, hm⟩
    · exact absurd (by cases k; exacts [hsame.version, hsame.hwMonitor]) hne
    · exact .inl hreset
    · obtain ⟨hid, hcap, hlen, hstore, hfresh⟩ := hm.writes_counted hne
      refine .inr ⟨hp, hg, hc, body, _, hf, hid, rfl, hcap, hlen, ?_, ?_, ?_, hfresh⟩
      · rw [hstore]
        rfl
      · rw [hstore]
        exact fun i hi => storeElems_below _ _ _ _ hi
      · rw [hstore]
        exact fun i hi => storeElems_beyond _ _ _ _ hi

/-! ## The state after reset -/

/-- Settles O59: the reset state is what RESET makes of it, so the invariants that every RESET
re-establishes hold of it; the others are read off the reset values (R50). -/
theorem resetMeetsTheInvariants : Obligations.ResetMeetsTheInvariants :=
  ⟨by decide, rfl, holdersOk_resetState State.reset, readerOk_of_idle (by decide) rfl,
    validOk_of_not_valid rfl, flagsFollowRecord_resetState State.reset,
    headingLastOk_of_none_fresh rfl⟩

end Sys2Proof.Machine

/-! # Proofs: the checksum's arithmetic (40_checksum)

One pass of the loop is linear over exclusive-or and can be undone; from that the table form, the
laws of the fold over a string, and which changes of a string it always shows. -/

namespace Sys2Proof.Machine

/-! ## One pass, and eight of them (R131) -/

/-- A pass shifts right, and adds the polynomial by the bit shifted out. -/
theorem crcShift_eq (c : U32) :
    crcShift c = (c >>> 1) ^^^ (if c.getLsbD 0 then crcPoly else 0#32) := by
  rw [crcShift]
  split
  · rfl
  · rw [BitVec.xor_zero]

/-- A pass that shifts a 0 out only shifts. -/
theorem crcShift_of_low_zero {c : U32} (h : c.getLsbD 0 = false) : crcShift c = c >>> 1 := by
  rw [crcShift, h]
  rfl

/-- A pass is linear. -/
theorem crcShift_xor (a b : U32) : crcShift (a ^^^ b) = crcShift a ^^^ crcShift b := by
  have hsel : (if (a ^^^ b).getLsbD 0 then crcPoly else 0#32) =
      (if a.getLsbD 0 then crcPoly else 0#32) ^^^ (if b.getLsbD 0 then crcPoly else 0#32) := by
    rw [BitVec.getLsbD_xor]
    cases a.getLsbD 0 <;> cases b.getLsbD 0 <;> decide
  simp only [crcShift_eq, hsel, BitVec.ushiftRight_xor_distrib]
  ac_rfl

theorem crcShifts_xor (n : Nat) (a b : U32) :
    crcShifts n (a ^^^ b) = crcShifts n a ^^^ crcShifts n b := by
  induction n generalizing a b with
  | zero => rfl
  | succ n ih => rw [crcShifts, crcShift_xor, ih]; rfl

/-- Eight passes over the register and the byte. -/
theorem crcStep_xor (a b : U32) (x y : Byte) :
    crcStep (a ^^^ b) (x ^^^ y) = crcStep a x ^^^ crcStep b y := by
  rw [crcStep, crcStep, crcStep, ← crcShifts_xor, BitVec.setWidth_xor]
  congr 1
  ac_rfl

/-- While the bits shifted out are 0, the passes only shift. -/
theorem crcShifts_of_low_zero (n : Nat) (c : U32) (h : ∀ i < n, c.getLsbD i = false) :
    crcShifts n c = c >>> n := by
  induction n generalizing c with
  | zero => simp [crcShifts]
  | succ n ih =>
    rw [crcShifts, crcShift_of_low_zero (h 0 (Nat.succ_pos n)), ih _ fun i hi => ?_,
      ← BitVec.shiftRight_add, Nat.add_comm]
    rw [BitVec.getLsbD_ushiftRight]
    exact h _ (by omega)

theorem crcStep_zero : crcStep 0#32 0#8 = 0#32 := by decide

/-- A byte equal to the low eight bits only shifts them out. -/
theorem crcStep_low_byte (c : U32) : crcStep c (c.setWidth 8) = c >>> 8 := by
  rw [crcStep, crcShifts_of_low_zero 8 _ fun i hi => ?_, BitVec.ushiftRight_xor_distrib]
  · ext i hi
    simp
  · have hlt : i < 32 := by omega
    simp [hi, hlt]

/-- Settles O1: the loop is unfolded, and the listed values are computed. -/
theorem crcStepsByEightReflectedShifts : Obligations.CrcStepsByEightReflectedShifts := by
  refine ⟨fun _ => rfl, fun _ _ => rfl, fun _ => rfl, ?_⟩
  decide +kernel

/-- Settles O2: the two operations are record updates, and the updates compose as the fold does. -/
theorem checksumRegisterFollowsTheBytes : Obligations.ChecksumRegisterFollowsTheBytes := by
  refine ⟨fun _ => rfl, fun _ _ => rfl, fun s v w => ?_, fun _ _ => rfl, ?_⟩
  · rw [crcUpd, crcUpd, crcUpd, crcFold_append]
  · decide

/-- Settles O3: the register and byte together are their low eight bits, which the table entry
steps, and the rest, which is only shifted. -/
theorem crcTableFormAgrees : Obligations.CrcTableFormAgrees := by
  refine ⟨fun c b => ?_, by decide⟩
  have hlow : ((c ^^^ b.setWidth 32) &&& 0xFF#32).setWidth 8 =
      (c ^^^ b.setWidth 32).setWidth 8 := by
    have hmask : (0xFF#32).setWidth 8 = BitVec.allOnes 8 := by decide
    rw [BitVec.setWidth_and, hmask, BitVec.and_allOnes]
  have hhigh : (c ^^^ b.setWidth 32) >>> 8 = c >>> 8 := by
    ext i hi
    simp
  generalize hx : c ^^^ b.setWidth 32 = x at hlow hhigh ⊢
  calc crcStep c b
      = crcStep (x ^^^ 0#32) (x.setWidth 8 ^^^ x.setWidth 8) := by
        rw [BitVec.xor_self, BitVec.xor_zero, ← hx, crcStep, crcStep, BitVec.setWidth_zero,
          BitVec.xor_zero]
    _ = crcStep x (x.setWidth 8) ^^^ crcStep 0#32 (x.setWidth 8) := crcStep_xor _ _ _ _
    _ = (c >>> 8) ^^^ crcStep 0#32 ((x &&& 0xFF#32).setWidth 8) := by
        rw [crcStep_low_byte, hhigh, hlow]


/-! ## The fold over a string (R132, R137) -/

/-- The fold is linear in the register and in strings of equal length. -/
theorem crcFold_xor (c d : U32) (a b : Bytes) (h : a.length = b.length) :
    crcFold (c ^^^ d) (List.zipWith (· ^^^ ·) a b) = crcFold c a ^^^ crcFold d b := by
  induction a generalizing b c d with
  | nil =>
    obtain rfl := List.length_eq_zero_iff.mp h.symm
    rfl
  | cons x a ih =>
    obtain ⟨y, b, rfl⟩ := List.exists_cons_of_length_eq_add_one h.symm
    simp only [List.zipWith_cons_cons, crcFold_cons, crcStep_xor]
    exact ih _ _ b (by simpa using h)

theorem crcFold_zeros (n : Nat) : crcFold 0#32 (List.replicate n 0#8) = 0#32 := by
  induction n with
  | zero => rfl
  | succ n ih => rw [List.replicate_succ, crcFold_cons, crcStep_zero, ih]

/-- The bytes of the register's own value only shift it out. -/
theorem crcFold_leBytes_self (n : Nat) (c : U32) :
    crcFold c (leBytes n c.toNat) = c >>> (8 * n) := by
  induction n generalizing c with
  | zero => simp [leBytes]
  | succ n ih =>
    have hbyte : BitVec.ofNat 8 c.toNat = c.setWidth 8 := BitVec.ofNat_toNat 8 c
    have hrest : c.toNat / 256 = (c >>> 8).toNat := by
      rw [BitVec.toNat_ushiftRight, Nat.shiftRight_eq_div_pow]
    rw [leBytes, crcFold_cons, hbyte, crcStep_low_byte, hrest, ih, ← BitVec.shiftRight_add]
    congr 1
    omega

/-- Settles O4: each law is one of the fold, from the register at 0 (R137). -/
theorem crcArithmeticLaws : Obligations.CrcArithmeticLaws := by
  refine ⟨fun a b h => ?_, fun n s => ?_, fun s => ?_, fun a b => crcFold_append _ a b⟩
  · exact (congrArg (crcFold · _) (BitVec.xor_self (x := 0#32)).symm).trans
      (crcFold_xor 0#32 0#32 a b h)
  · rw [crc32, crcFold_append, crcInit, crcFold_zeros]
    rfl
  · rw [crc32, crcFold_append, ← crc32, le32, crcFold_leBytes_self]
    exact BitVec.ushiftRight_eq_zero (Nat.le_refl 32)

/-! ## Changes that always show (R138)

The fold takes the bits of a string one by one. Two runs that end alike and differ in their last 32
bits at most are told apart by their start: undoing the passes, the difference of the registers is
the difference of the bits. -/

/-- One bit in the register's lowest place. -/
def lowBit (b : Bool) : U32 := (BitVec.ofBool b).setWidth 32

theorem lowBit_getLsbD (b : Bool) (i : Nat) : (lowBit b).getLsbD i = (decide (i = 0) && b) := by
  cases b <;> cases i <;> simp [lowBit]

/-- The register after the first `n` bits of `f` have entered it, from `c`. -/
def serialCrc : U32 → (Nat → Bool) → Nat → U32
  | c, _, 0 => c
  | c, f, n + 1 => serialCrc (crcShift (c ^^^ lowBit (f 0))) (fun i => f (i + 1)) n

theorem serialCrc_add (c : U32) (f : Nat → Bool) (m n : Nat) :
    serialCrc c f (m + n) = serialCrc (serialCrc c f m) (fun i => f (m + i)) n := by
  induction m generalizing c f with
  | zero => simp only [Nat.zero_add, serialCrc]
  | succ m ih =>
    rw [Nat.succ_add, serialCrc, ih, serialCrc]
    simp only [Nat.add_right_comm m]

theorem serialCrc_congr (c : U32) {f g : Nat → Bool} {n : Nat} (h : ∀ i < n, f i = g i) :
    serialCrc c f n = serialCrc c g n := by
  induction n generalizing c f g with
  | zero => rfl
  | succ n ih => rw [serialCrc, serialCrc, h 0 (Nat.succ_pos n), ih _ fun i hi => h _ (by omega)]

/-- Passes over the register and a word take in the word's low bits one by one. -/
theorem crcShifts_eq_serialCrc (n : Nat) (c x : U32) :
    crcShifts n (c ^^^ x) = serialCrc c x.getLsbD n ^^^ (x >>> n) := by
  induction n generalizing c x with
  | zero => simp [crcShifts, serialCrc]
  | succ n ih =>
    have hlow : (x ^^^ lowBit (x.getLsbD 0)).getLsbD 0 = false := by
      rw [BitVec.getLsbD_xor, lowBit_getLsbD, decide_eq_true rfl, Bool.true_and, Bool.xor_self]
    have hhigh : (x ^^^ lowBit (x.getLsbD 0)) >>> 1 = x >>> 1 := by
      apply BitVec.eq_of_getLsbD_eq
      simp [lowBit_getLsbD]
    have hsplit : c ^^^ x = (c ^^^ lowBit (x.getLsbD 0)) ^^^ (x ^^^ lowBit (x.getLsbD 0)) := by
      rw [BitVec.xor_comm x, BitVec.xor_assoc, ← BitVec.xor_assoc (lowBit _), BitVec.xor_self,
        BitVec.zero_xor]
    have hpass : crcShift (c ^^^ x) = crcShift (c ^^^ lowBit (x.getLsbD 0)) ^^^ (x >>> 1) := by
      rw [hsplit, crcShift_xor, crcShift_of_low_zero hlow, hhigh]
    rw [crcShifts, hpass, ih, serialCrc, ← BitVec.shiftRight_add, Nat.add_comm 1 n]
    congr 2
    funext i
    rw [BitVec.getLsbD_ushiftRight, Nat.add_comm]

/-- The fold takes in the bits of the string in their order. -/
theorem crcFold_eq_serialCrc (c : U32) (s : Bytes) :
    crcFold c s = serialCrc c (streamBit s) (8 * s.length) := by
  induction s generalizing c with
  | nil => rfl
  | cons b t ih =>
    have hbyte : crcStep c b = serialCrc c b.getLsbD 8 := by
      have hgone : b.setWidth 32 >>> 8 = 0#32 := by
        apply BitVec.eq_of_getLsbD_eq
        simp
      rw [crcStep, crcShifts_eq_serialCrc, hgone, BitVec.xor_zero]
      exact serialCrc_congr c fun i hi => by simp; omega
    have hfirst : ∀ i < 8, b.getLsbD i = streamBit (b :: t) i := fun i hi => by
      simpa using (streamBit_byte (b :: t) 0 i hi).symm
    have hrest : ∀ i, streamBit t i = streamBit (b :: t) (8 + i) := fun i => by
      rw [streamBit, streamBit, Nat.add_div_left i (by decide), Nat.add_mod_left]
      rfl
    rw [crcFold_cons, ih, hbyte, serialCrc_congr c hfirst, funext hrest, ← serialCrc_add,
      List.length_cons]
    congr 1
    omega

/-- The highest bit after a pass is the bit shifted out, since it is set in the polynomial. -/
theorem crcShift_top (z : U32) : (crcShift z).getLsbD 31 = z.getLsbD 0 := by
  have hpoly : crcPoly.getLsbD 31 = true := by decide
  rw [crcShift_eq, BitVec.getLsbD_xor, BitVec.getLsbD_ushiftRight]
  cases z.getLsbD 0 <;> simp [hpoly]

/-- A pass whose highest bit is 0 has only shifted. -/
theorem crcShift_of_top_zero {z : U32} (h : (crcShift z).getLsbD 31 = false) :
    z.getLsbD 0 = false ∧ crcShift z = z >>> 1 := by
  have hlow : z.getLsbD 0 = false := (crcShift_top z).symm.trans h
  exact ⟨hlow, crcShift_of_low_zero hlow⟩

/-- A pass can be undone. -/
theorem crcShift_injective : Function.Injective crcShift := by
  intro x y h
  have hzero : crcShift (x ^^^ y) = 0#32 := by rw [crcShift_xor, h, BitVec.xor_self]
  obtain ⟨hlow, hshift⟩ := crcShift_of_top_zero (z := x ^^^ y) (by rw [hzero]; rfl)
  refine BitVec.xor_eq_zero_iff.mp (BitVec.eq_of_getLsbD_eq fun i _ => ?_)
  cases i with
  | zero => exact hlow
  | succ i =>
    have hbit := congrArg (BitVec.getLsbD · i) (hshift.symm.trans hzero)
    simpa [BitVec.getLsbD_ushiftRight, Nat.add_comm] using hbit

/-- Different registers stay different under the same bits. -/
theorem serialCrc_injective (f : Nat → Bool) (n : Nat) :
    Function.Injective fun c => serialCrc c f n := by
  induction n generalizing f with
  | zero => exact fun _ _ h => h
  | succ n ih =>
    intro x y h
    exact (BitVec.xor_left_inj _).mp (crcShift_injective (ih _ h))

/-- Registers that `j` bits each, at most 32, bring together differ by the bits' difference. -/
theorem serialCrc_difference {j : Nat} (hj : j ≤ 32) {x y : U32} {f g : Nat → Bool}
    (h : serialCrc x f j = serialCrc y g j) (i : Nat) :
    (x ^^^ y).getLsbD i = (decide (i < j) && (f i ^^ g i)) := by
  induction j generalizing x y f g i with
  | zero =>
    obtain rfl : x = y := h
    simp
  | succ j ih =>
    have hnext := ih (by omega) h
    rw [← crcShift_xor] at hnext
    have hsplit : (x ^^^ lowBit (f 0)) ^^^ (y ^^^ lowBit (g 0)) =
        (x ^^^ y) ^^^ (lowBit (f 0) ^^^ lowBit (g 0)) := by ac_rfl
    rw [hsplit] at hnext
    have htop := hnext 31
    rw [decide_eq_false (show ¬ 31 < j by omega), Bool.false_and] at htop
    obtain ⟨hlow, hshift⟩ := crcShift_of_top_zero htop
    cases i with
    | zero =>
      simp only [BitVec.getLsbD_xor, lowBit_getLsbD] at hlow ⊢
      revert hlow
      cases x.getLsbD 0 <;> cases y.getLsbD 0 <;> cases f 0 <;> cases g 0 <;> simp
    | succ i =>
      have hbit := hnext i
      rw [hshift] at hbit
      simpa [lowBit_getLsbD, BitVec.getLsbD_ushiftRight, Nat.add_comm 1 i] using hbit

/-- Streams that differ inside 32 consecutive bits at most, and bring the register to one value some
time after them, are equal. -/
theorem serialCrc_window {f g : Nat → Bool} {k r : Nat} {c : U32}
    (hout : ∀ j, f j ≠ g j → k ≤ j ∧ j < k + 32)
    (h : serialCrc c f (k + 32 + r) = serialCrc c g (k + 32 + r)) : f = g := by
  have hbelow : serialCrc c f k = serialCrc c g k :=
    serialCrc_congr c fun i hi => by
      by_contra hne
      exact absurd (hout i hne).1 (by omega)
  have habove : (fun i => f (k + 32 + i)) = fun i => g (k + 32 + i) := funext fun i => by
    by_contra hne
    exact absurd (hout _ hne).2 (by omega)
  rw [serialCrc_add, serialCrc_add c g, habove] at h
  have hwindow := serialCrc_injective _ _ h
  rw [serialCrc_add, serialCrc_add c g, hbelow] at hwindow
  funext j
  by_contra hne
  obtain ⟨hk, hj⟩ := hout j hne
  obtain ⟨i, rfl⟩ := Nat.exists_eq_add_of_le hk
  have hbit := serialCrc_difference (Nat.le_refl 32) hwindow i
  rw [BitVec.xor_self, decide_eq_true (show i < 32 by omega)] at hbit
  simp [hne] at hbit

/-- Strings of equal length with the same bits are equal. -/
theorem eq_of_streamBit_eq {a b : Bytes} (hlen : a.length = b.length)
    (h : streamBit a = streamBit b) : a = b := by
  refine List.ext_getElem hlen fun i ha hb => BitVec.eq_of_getLsbD_eq fun r hr => ?_
  have hbit := congrFun h (8 * i + r)
  rw [streamBit_byte a i r hr, streamBit_byte b i r hr] at hbit
  simpa [List.getD, ha, hb] using hbit

/-- Strings of equal length that differ inside 32 consecutive bits at most, and have one checksum,
are equal (R138). -/
theorem crc32_window {a b : Bytes} {k : Nat} (hlen : a.length = b.length)
    (hout : ∀ j, streamBit a j ≠ streamBit b j → k ≤ j ∧ j < k + 32)
    (hcrc : crc32 a = crc32 b) : a = b := by
  refine eq_of_streamBit_eq hlen (serialCrc_window (c := crcInit) (r := 8 * a.length) hout ?_)
  have hpast : ∀ i, streamBit a (8 * a.length + i) = streamBit b (8 * a.length + i) := fun i => by
    rw [streamBit_beyond a _ (by omega), streamBit_beyond b _ (by omega)]
  rw [Nat.add_comm (k + 32), serialCrc_add, serialCrc_add _ (streamBit b), funext hpast,
    ← crcFold_eq_serialCrc, hlen, ← crcFold_eq_serialCrc]
  exact congrArg (serialCrc · _ _) hcrc

/-- Strings that differ inside one stretch of bytes only differ in its bits only. -/
theorem streamBit_ne_of_append {p w w' q : Bytes} (hlen : w.length = w'.length) {j : Nat}
    (h : streamBit (p ++ w ++ q) j ≠ streamBit (p ++ w' ++ q) j) :
    8 * p.length ≤ j ∧ j < 8 * (p.length + w.length) := by
  by_contra hnot
  refine h (congrArg (BitVec.getLsbD · _) ?_)
  by_cases hp : j / 8 < p.length
  · simp [List.getD, List.getElem?_append, hp]
  · have hq : p.length + w.length ≤ j / 8 := by omega
    have hq' : ¬ j / 8 - p.length < w.length := by omega
    simp [List.getD, List.getElem?_append, hp, hq', ← hlen]

/-- Settles O5: equal checksums of strings that differ inside a window make them equal; four bytes
are a window that begins with the first of them (R138). -/
theorem crcDetectsChangeWithinFourBytes : Obligations.CrcDetectsChangeWithinFourBytes := by
  refine ⟨fun a b k hlen hne hout hcrc => hne (crc32_window hlen hout hcrc),
    fun p w w' q hlen hfour hne hcrc => hne ?_⟩
  have heq := crc32_window (k := 8 * p.length) (by simp [hlen]) (fun j hj => ?_) hcrc
  · simpa using heq
  · obtain ⟨hlo, hhi⟩ := streamBit_ne_of_append hlen hj
    exact ⟨hlo, by omega⟩

/-- Settles O6: one payload byte is a stretch of one byte, so the trailer is not the checksum of the
changed frame; the reader consumes it whole (R294, R159). -/
theorem flippedPayloadByteIsChecksumMismatch :
    Obligations.FlippedPayloadByteIsChecksumMismatch := by
  intro id h p rest i b hp hi hb
  have hset : p.set i b = p.take i ++ [b] ++ p.drop (i + 1) := by
    rw [List.set_eq_take_append_cons_drop, if_pos hi, List.append_assoc]
    rfl
  have hsame : p.take i ++ [p[i]] ++ p.drop (i + 1) = p := by simp
  have hbyte : [b] ≠ [p[i]] := by
    rw [List.getElem?_eq_getElem hi] at hb
    simpa [eq_comm] using hb
  have hcrc : crc32 (frameBody id h (p.set i b)) ≠ crc32 (frameBody id h p) := by
    have hdetect := crcDetectsChangeWithinFourBytes.2
      (frameLead ++ headerRest id h p.length ++ p.take i) [b] [p[i]] (p.drop (i + 1)) rfl
      (Nat.le_add_left 1 3) hbyte
    have hcut : ∀ x, frameLead ++ headerRest id h p.length ++ p.take i ++ [x] ++ p.drop (i + 1) =
        frameLead ++ headerRest id h p.length ++ (p.take i ++ [x] ++ p.drop (i + 1)) := fun x => by
      simp only [List.append_assoc]
    rw [hcut, hcut, hsame, ← hset] at hdetect
    rwa [frameBody, frameBody, List.length_set]
  rw [readFrame_frameBody id h (by rwa [List.length_set]), if_neg hcrc]

end Sys2Proof.Machine

/-! # Proofs: frame instructions (42_message_decoder)

What a decode answers when its checks raise and when they accept, for either shape of record; from
that the nine frame instructions, and a frame in rx read into its holder. -/

namespace Sys2Proof.Machine
open Sys2Proof.Laws.EncodedForm

/-! ## The checks of R192 and R193, one by one -/

theorem decFixed_of_size {k : FixedKind} {p : Bytes} {s : State}
    (h : p.length = fixedSize s.cfg k) :
    decFixed k p s = endAttempt (.ok (fixedToKind k)) (commitFixed k p s) :=
  if_neg (not_not_intro h)

theorem decFixed_of_other_size {k : FixedKind} {p : Bytes} {s : State}
    (h : p.length ≠ fixedSize s.cfg k) : decFixed k p s = raise .sizeMismatch 9 s := if_pos h

theorem decCounted_of_short {k : CountedKind} {p : Bytes} {s : State} (h : p.length < 4) :
    decCounted k p s = raise .sizeMismatch 9 s := if_pos h

theorem decCounted_of_over_capacity {k : CountedKind} {p : Bytes} {s : State} (h4 : 4 ≤ p.length)
    (hcap : countedCap s.cfg k < leAt p 0 4) : decCounted k p s = raise .capacityExceeded 9 s :=
  (if_neg (Nat.not_lt.mpr h4)).trans (if_pos hcap)

theorem decCounted_of_other_size {k : CountedKind} {p : Bytes} {s : State} (h4 : 4 ≤ p.length)
    (hcap : leAt p 0 4 ≤ countedCap s.cfg k) (hlen : p.length ≠ 4 + leAt p 0 4 * countedElem k) :
    decCounted k p s = raise .sizeMismatch 9 s :=
  (if_neg (Nat.not_lt.mpr h4)).trans ((if_neg (Nat.not_lt.mpr hcap)).trans (if_pos hlen))

theorem decCounted_of_size {k : CountedKind} {p : Bytes} {s : State}
    (hcap : leAt p 0 4 ≤ countedCap s.cfg k) (hlen : p.length = 4 + leAt p 0 4 * countedElem k) :
    decCounted k p s = endAttempt (.ok (countedToKind k))
      (commitCounted k (storeElems (countedElem k) (leAt p 0 4) p (getCounted k s)) s) :=
  (if_neg (Nat.not_lt.mpr (hlen ▸ Nat.le_add_right 4 _))).trans
    ((if_neg (Nat.not_lt.mpr hcap)).trans (if_neg (not_not_intro hlen)))

/-! ## The instructions -/

/-- The instruction of a fixed-size kind is that kind's decode (R196 to R201). -/
theorem exec_fixedKind (k : FixedKind) (h : Header) (p : Bytes) (s : State) :
    exec (kindInstr (fixedToKind k) h p) s = .next (decFixed k p s) := by cases k <;> rfl

/-- The instruction of a count-prefixed kind is that kind's decode (R194, R195). -/
theorem exec_countedKind (k : CountedKind) (h : Header) (p : Bytes) (s : State) :
    exec (kindInstr (countedToKind k) h p) s = .next (decCounted k p s) := by cases k <;> rfl

/-- A fixed-size kind's instruction commits a payload of the kind's size. -/
theorem exec_fixedKind_commits (k : FixedKind) (h : Header) {p : Bytes} {s : State}
    (hp : p.length = fixedSize s.cfg k) : exec (kindInstr (fixedToKind k) h p) s =
      .next (endAttempt (.ok (fixedToKind k)) (commitFixed k p s)) := by
  rw [exec_fixedKind, decFixed_of_size hp]

/-- It raises on any other. -/
theorem exec_fixedKind_raises (k : FixedKind) (h : Header) {p : Bytes} {s : State}
    (hp : p.length ≠ fixedSize s.cfg k) :
    exec (kindInstr (fixedToKind k) h p) s = .next (raise .sizeMismatch 9 s) := by
  rw [exec_fixedKind, decFixed_of_other_size hp]

/-- Settles O14: each of the four kinds commits or raises by its size. -/
theorem fixedRecordFramesCommitOrRaise : Obligations.FixedRecordFramesCommitOrRaise := by
  intro hdr p s
  exact ⟨exec_fixedKind_commits .rxStatus hdr, exec_fixedKind_raises .rxStatus hdr,
    exec_fixedKind_commits .rxStatusEvent hdr, exec_fixedKind_raises .rxStatusEvent hdr,
    fun hp => ⟨_, exec_fixedKind_commits .time hdr hp, rfl, rfl⟩, exec_fixedKind_raises .time hdr,
    exec_fixedKind_commits .bestPos hdr, exec_fixedKind_raises .bestPos hdr⟩

/-- Settles O15: so do the two heading kinds, whose commit sets `hdg_last`. -/
theorem headingFramesCommitOrRaise : Obligations.HeadingFramesCommitOrRaise := by
  intro hdr p s
  exact ⟨exec_fixedKind_commits .heading2 hdr, exec_fixedKind_raises .heading2 hdr,
    exec_fixedKind_commits .dualHeading hdr, exec_fixedKind_raises .dualHeading hdr⟩

/-- A count-prefixed kind's instruction: the checks of R193 in order (D13), then the commit. -/
theorem exec_countedKind_cases (k : CountedKind) (h : Header) (p : Bytes) (s : State) :
    (p.length < 4 →
      exec (kindInstr (countedToKind k) h p) s = .next (raise .sizeMismatch 9 s)) ∧
    (4 ≤ p.length → countedCap s.cfg k < leAt p 0 4 →
      exec (kindInstr (countedToKind k) h p) s = .next (raise .capacityExceeded 9 s)) ∧
    (4 ≤ p.length → leAt p 0 4 ≤ countedCap s.cfg k →
      p.length ≠ 4 + leAt p 0 4 * countedElem k →
      exec (kindInstr (countedToKind k) h p) s = .next (raise .sizeMismatch 9 s)) ∧
    (leAt p 0 4 ≤ countedCap s.cfg k → p.length = 4 + leAt p 0 4 * countedElem k →
      ∃ st : CountedStore, exec (kindInstr (countedToKind k) h p) s =
          .next (endAttempt (.ok (countedToKind k)) (commitCounted k st s)) ∧
        st.count = leAt p 0 4 ∧
        (∀ i, i < leAt p 0 4 →
          st.elems[i]? = some (slice p (4 + countedElem k * i) (countedElem k))) ∧
        (∀ i, leAt p 0 4 ≤ i → st.elems[i]? = (getCounted k s).elems[i]?)) := by
  rw [exec_countedKind]
  refine ⟨fun hshort => ?_, fun h4 hcap => ?_, fun h4 hcap hlen => ?_, fun hcap hlen => ?_⟩
  · rw [decCounted_of_short hshort]
  · rw [decCounted_of_over_capacity h4 hcap]
  · rw [decCounted_of_other_size h4 hcap hlen]
  · rw [decCounted_of_size hcap hlen]
    exact ⟨_, rfl, rfl, fun i hi => storeElems_below _ _ _ _ hi,
      fun i hi => storeElems_beyond _ _ _ _ hi⟩

/-- Settles O16: the count-prefixed form with elements of 96 bytes (R194). -/
theorem versionFrameCommitsOrRaises : Obligations.VersionFrameCommitsOrRaises :=
  fun hdr p s => exec_countedKind_cases .version hdr p s

/-- Settles O17: the count-prefixed form with elements of 8 bytes (R195). -/
theorem hwMonitorFrameCommitsOrRaises : Obligations.HwMonitorFrameCommitsOrRaises :=
  fun hdr p s => exec_countedKind_cases .hwMonitor hdr p s

/-- Settles O18: an untracked frame only ends the attempt (R202). -/
theorem untrackedFrameChangesNoRecord : Obligations.UntrackedFrameChangesNoRecord :=
  fun _ _ _ _ => rfl

/-- The selection of R100 and the chain of R190 compare the same identifiers in the same order. -/
theorem exec_selectInstr (id : U16) (h : Header) (p : Bytes) (s : State) :
    exec (selectInstr s.cfg id h p) s = .next (decodeMessage id p s) := by
  simp only [selectInstr, decodeMessage, apply_ite (exec · s), apply_ite Host.Outcome.next]
  rfl

/-- Settles O19: DECODE takes no header (R92, R190, R204). -/
theorem decodeDispatchesByIdAlone : Obligations.DecodeDispatchesByIdAlone := by
  intro id hdr hdr' p s
  exact ⟨exec_selectInstr id hdr p s, by rw [exec_selectInstr, exec_selectInstr]⟩

/-! ## A frame in rx (R203) -/

/-- DECODE on a kind's identifier does what the kind's instruction does. -/
theorem decodeMessage_kind {s : State} (hc : s.cfg.wf = true) (k : Kind) (p : Bytes) :
    exec (kindInstr k Header.zero p) s = .next (decodeMessage (kindMsgId s.cfg k) p s) := by
  rw [← exec_selectInstr _ Header.zero, selectInstr_kind (idsDistinct_of_wf hc)]

theorem decodeMessage_fixed {s : State} (hc : s.cfg.wf = true) (k : FixedKind) (p : Bytes) :
    decodeMessage (kindMsgId s.cfg (fixedToKind k)) p s = decFixed k p s :=
  Host.Outcome.next.inj ((decodeMessage_kind hc _ p).symm.trans (exec_fixedKind k _ p s))

theorem decodeMessage_counted {s : State} (hc : s.cfg.wf = true) (k : CountedKind) (p : Bytes) :
    decodeMessage (kindMsgId s.cfg (countedToKind k)) p s = decCounted k p s :=
  Host.Outcome.next.inj ((decodeMessage_kind hc _ p).symm.trans (exec_countedKind k _ p s))

/-- An attempt on a frame at the head of rx consumes it and decodes its payload (R165, R203). -/
theorem attemptOnce_frameBytes {s : State} {id : U16} {h : Header} {p rest : Bytes}
    (hp : p.length ≤ 65535) (hrx : s.rx = frameBytes id h p ++ rest) :
    attemptOnce s = decodeMessage id p { s with rx := rest, consumed := 32 + p.length } := by
  obtain ⟨hread, hid, -, -, hpayload⟩ := frameBytesReadBack id h p rest hp
  obtain ⟨hlen, -⟩ := frameBytes_form id h p hp
  have hcount : (frameBytes id h p ++ rest).length - rest.length = 32 + p.length := by
    rw [List.length_append, hlen]
    omega
  simp only [attemptOnce, hrx, hread, hid, hpayload, hcount]

/-- Settles O20: the attempt is the kind's decode, whose checks accept the payload. -/
theorem frameRoundTripsIntoItsHolder : Obligations.FrameRoundTripsIntoItsHolder := by
  refine ⟨fun s k h p rest hc hsize hp hrx => ?_,
    fun s k h p rest n hc hn hcap hlen hp hrx => ?_⟩
  · have hdec : attemptOnce s = endAttempt (.ok (fixedToKind k)) (commitFixed k p
        { s with rx := rest, consumed := 32 + p.length }) := by
      rw [attemptOnce_frameBytes hp hrx]
      exact (decodeMessage_fixed (s := { s with rx := rest, consumed := 32 + p.length }) hc k
        p).trans (decFixed_of_size hsize)
    rw [hdec]
    refine ⟨getFixed_endAttempt_commitFixed _ _ _ _, isFresh_markFresh_same _ _, ?_, ?_⟩ <;> simp
  · subst hn
    have hdec : attemptOnce s = endAttempt (.ok (countedToKind k)) (commitCounted k
        (storeElems (countedElem k) (leAt p 0 4) p (getCounted k s))
        { s with rx := rest, consumed := 32 + p.length }) := by
      rw [attemptOnce_frameBytes hp hrx]
      exact (decodeMessage_counted (s := { s with rx := rest, consumed := 32 + p.length }) hc k
        p).trans (decCounted_of_size hcap hlen)
    rw [hdec, getCounted_endAttempt_commitCounted]
    refine ⟨rfl, fun i hi => storeElems_below _ _ _ _ hi, fun i hi => storeElems_beyond _ _ _ _ hi,
      isFresh_markFresh_same _ _, ?_, ?_⟩ <;> simp

end Sys2Proof.Machine

/-! # Proofs: ports, frame buffer and turn

The remaining operations at the ports; the frame buffer's reads and writes; the start of an attempt,
the block's turn and the next slot; the frames the spec dumps. -/

namespace Sys2Proof.Machine

/-! ## Operations at the ports (44_host_operations) -/

/-- POLL answers the start of the cycle (R271). -/
theorem exec_poll_of_idle {s : State} (hidle : s.pollPhase = .idle) :
    exec .poll s = .next (pollStart s) := whenIdle_idle hidle

/-- SNAP answers the state with the snapshot recorded (R274). -/
theorem exec_snap_of_idle {s : State} (hidle : s.pollPhase = .idle) :
    exec .snap s = .next (snapState s) := whenIdle_idle hidle

/-- Settles O23: NOP answers the state it was given, and asks for no idle block (R280). -/
theorem nopHasNoEffect : Obligations.NopHasNoEffect := fun _ => rfl

/-- Settles O25: the fields that `resetState` takes from the state, and those R50 sets. -/
theorem resetKeepsTheOutside : Obligations.ResetKeepsTheOutside := fun s hidle =>
  ⟨resetState s, exec_reset_of_idle hidle, rfl, rfl, rfl, rfl, rfl, rfl, Memory.read_nil⟩

/-- Settles O26: the start of POLL is an update of three fields (R271). -/
theorem pollClearsTheCycleFlags : Obligations.PollClearsTheCycleFlags :=
  fun _ hidle => exec_poll_of_idle hidle

/-- Settles O27: the snapshot does not read the record of the previous one, so a second SNAP writes
the same (R274). -/
theorem snapReturnsTheSnapshot : Obligations.SnapReturnsTheSnapshot := fun s hidle =>
  ⟨snapState s, snapshot s, exec_snap_of_idle hidle, rfl, rfl,
    exec_snap_of_idle (s := snapState s) hidle⟩

/-- Settles O28: each of the five asks for an idle block (R275, R281, R282). -/
theorem hostOperationsRefusedDuringPoll : Obligations.HostOperationsRefusedDuringPoll :=
  fun _ hbusy => ⟨whenIdle_busy hbusy, whenIdle_busy hbusy, whenIdle_busy hbusy,
    whenIdle_busy hbusy, fun _ => whenIdle_busy hbusy⟩

/-! ## The frame buffer (R66) -/

/-- Settles O7: a read inside `fb_len` is a read of the bytes stored, those of the last write or
those below it. -/
theorem frameBufferReadsBackWhatWasStored : Obligations.FrameBufferReadsBackWhatWasStored := by
  intro s v
  refine ⟨rfl, ?_, fun a n hbelow => ?_, fun a n hpast => if_neg (Nat.not_le.mpr hpast)⟩
  · have hnew : s.fbLen + v.length ≤ (fbWrite s.fbLen v s).fbLen := Nat.le_refl _
    rw [fbRead, if_pos hnew]
    exact Memory.readBytes_writeBytes_same s.fb s.fbLen v
  · have hnew : a + n ≤ (fbWrite s.fbLen v s).fbLen := Nat.le_add_right_of_le hbelow
    rw [fbRead, fbRead, if_pos hbelow, if_pos hnew]
    exact Memory.readBytes_writeBytes_below s.fb s.fbLen v a n hbelow

/-! ## The block's turn (R151, R271, R272) -/

/-- The start of an attempt on a byte of rx (R151). -/
theorem attemptStep_start {s : State} (hg : s.frStage = .idle) (hrx : s.rx ≠ []) :
    attemptStep s = .next { s with
      crcAcc := 0#32, fbLen := 0, frStage := .sync1, consumed := 0 } := by
  have hsome : ¬ rxAvail s = 0 := fun h => hrx (List.length_eq_zero_iff.mp h)
  simp only [attemptStep, hg, frStart, if_neg hsome]
  rfl

/-- Settles O30: with rx empty the stage stays S_IDLE and no event is emitted. -/
theorem attemptStart : Obligations.AttemptStart := by
  refine fun s hg => ⟨fun hrx => ?_, attemptStep_start hg⟩
  have hnone : rxAvail s = 0 := List.length_eq_zero_iff.mpr hrx
  simp only [attemptStep, hg, frStart, if_pos hnone]

/-- The guard of DRAIN while rx holds a byte (R272). -/
theorem blockTurn_guard_more {s : State} (hp : s.pollPhase = .guard) (hrx : s.rx ≠ []) :
    blockTurn s = .next { s with pollPhase := .attempt } := by
  have hsome : 0 < rxAvail s := List.length_pos_iff.mpr hrx
  simp only [blockTurn, hp, drainGuard, if_pos hsome]

/-- The guard of DRAIN once rx is empty (R272). -/
theorem blockTurn_guard_done {s : State} (hp : s.pollPhase = .guard) (hrx : s.rx = []) :
    blockTurn s = .next { s with pollPhase := .aggregate } := by
  have hnone : ¬ 0 < rxAvail s := by simp [rxAvail, hrx]
  simp only [blockTurn, hp, drainGuard, if_neg hnone]

theorem blockTurn_attempt {s : State} (hp : s.pollPhase = .attempt) :
    blockTurn s = attemptStep s := by simp only [blockTurn, hp]

theorem blockTurn_aggregate {s : State} (hp : s.pollPhase = .aggregate) :
    blockTurn s = .next (aggregate s) := by simp only [blockTurn, hp]

/-- Settles O37: the turn goes by the control position. -/
theorem blockTurnByPollPhase : Obligations.BlockTurnByPollPhase := fun _ =>
  ⟨fun hp => by simp only [blockTurn, hp], blockTurn_guard_more, blockTurn_guard_done,
    blockTurn_attempt, blockTurn_aggregate⟩

/-- A step with nothing from outside is the block's turn. -/
theorem step_quiet {s : State} (hc : s.cfg.wf = true) (hs : s.slots = []) :
    step s = blockTurn s := (step_wf hc).trans (turn_quiet hs)

/-- A step with a slot from outside is that slot's turn. -/
theorem step_slot {s : State} {sl : Slot} {l : List Slot} (hc : s.cfg.wf = true)
    (hs : s.slots = sl :: l) : step s = slotTurn sl { s with slots := l } := by
  rw [step_wf hc, turn, hs]

/-- Settles O42: the first slot says what the step is (log 2). -/
theorem stepTakesTheNextSlot : Obligations.StepTakesTheNextSlot := fun _ hc =>
  ⟨step_quiet hc, fun _ hs => step_slot hc hs, fun _ _ hs => step_slot hc hs,
    fun _ _ hs hp => (step_slot hc hs).trans (whenIdle_idle hp)⟩

/-! ## Frames that decode -/

/-- Bytes that decode to an instruction are an accepted frame with nothing after it (R104). -/
theorem decode_frame_ok {c : Config} {w : Bytes} {i : Instr} (h : decode c (.frame w) = .ok i) :
    ∃ body, readFrame w = (.frame body, []) ∧ i = frameInstr c body := by
  rcases hread : readFrame w with ⟨_ | _ | _, rest⟩
  · cases rest with
    | nil =>
      simp only [decode, decodeFrame, hread] at h
      exact ⟨_, rfl, (Except.ok.inj h).symm⟩
    | cons b t =>
      simp only [decode, decodeFrame, hread] at h
      cases h
  · simp only [decode, decodeFrame, hread] at h
    cases h
  · simp only [decode, decodeFrame, hread] at h
    cases h

/-- S_CHK on the bytes of a frame that decodes to `i` executes `i` (R159, R160, R190). -/
theorem attemptStep_decoded {s : State} {w : Bytes} {i : Instr} (hg : s.frStage = .chk)
    (hdec : decode s.cfg (.frame w) = .ok i) (hlen : s.fbLen + 4 = w.length)
    (hbytes : Memory.readBytes s.fb 0 s.fbLen = some (w.take s.fbLen))
    (hacc : s.crcAcc = crc32 (w.take s.fbLen))
    (hcrc : s.rxCrc = BitVec.ofNat 32 (leNat (w.drop s.fbLen))) : attemptStep s = exec i s := by
  obtain ⟨body, hread, rfl⟩ := decode_frame_ok hdec
  obtain ⟨h, p, t, hh, hp, ht, rfl, rfl, hsum⟩ := readFrame_accepts hread
  have hlead : (frameLead ++ h).length = 28 := by rw [List.length_append, hh]; rfl
  have hbody : (frameLead ++ h ++ p).length = s.fbLen := by
    rw [List.append_nil, List.length_append, ht] at hlen
    omega
  have hfield : frameLen (frameLead ++ h ++ p) = p.length := by
    rw [frameLen, leAt_append_left _ _ _ _ (by omega), hp]
    rfl
  rw [List.append_nil, List.take_left' hbody] at hbytes hacc
  rw [List.append_nil, List.drop_left' hbody, ← hsum] at hcrc
  have hfetch : fetchFrame s = some (frameLead ++ h ++ p) := by
    refine fetchFrame_of_readBytes ?_ hbytes
    rw [← hbody, List.length_append, hlead]
    exact congrArg (28 + ·) hfield.symm
  simp only [attemptStep, hg]
  exact stageChk_accepts (hacc.trans hcrc.symm) hfetch

/-- Settles O43: the block's turn is then S_CHK on the bytes it has read. -/
theorem stepRunsTheFrameItHasRead : Obligations.StepRunsTheFrameItHasRead := by
  intro s w i hc hp hg hdec hlen hbytes hacc hcrc
  refine ⟨fun hs => ?_, fun l hs => ?_⟩
  · rw [step_quiet hc hs, blockTurn_attempt hp]
    exact attemptStep_decoded hg hdec hlen hbytes hacc hcrc
  · rw [step_slot hc hs]
    exact (blockTurn_attempt (s := { s with slots := l }) hp).trans
      (attemptStep_decoded (s := { s with slots := l }) hg hdec hlen hbytes hacc hcrc)

/-- Bytes that are the frame of some fields decode to what the identifier selects. -/
theorem decode_eq_frameBytes {c : Config} {w : Bytes} {id : U16} {h : Header} {p : Bytes}
    (hp : payloadFits p = true) (hw : w = frameBytes id h p) :
    decode c (.frame w) = .ok (selectInstr c id h p) := hw ▸ decode_frameBytes c id h hp

/-- Settles O9: each dump is the frame of the fields listed beside it, trailer and all, under an
identifier that selects the instruction. -/
theorem dumpedFramesDecode : Obligations.DumpedFramesDecode :=
  ⟨decode_eq_frameBytes (id := 1#16) (h := Header.zero) (p := []) rfl (by decide +kernel),
    decode_eq_frameBytes (id := 0x1234#16) (h := { Header.zero with sequence := 1#16 })
      (p := [0xDE, 0xAD]) rfl (by decide +kernel),
    decode_eq_frameBytes (id := Config.p0.msgIdHwMonitor)
      (h := { Header.zero with
        port := 0x20#8, timeStatus := 0xB4#8, week := 2444#16, ms := 123000#32 })
      (p := [0x01, 0x00, 0x00, 0x00, 0x00, 0x00, 0x1A, 0x42, 0x00, 0x01, 0x00, 0x00]) rfl
      (by decide +kernel)⟩

end Sys2Proof.Machine

/-! # Proofs: the Status Aggregator (43_status_aggregator)

AGG as one function of the records, what its reason and flags say, and a POLL with nothing in rx. -/

namespace Sys2Proof.Machine
open Sys2Proof.Safety

/-! ## AGG as one function (R244) -/

/-- AGG.8 and AGG.9 as one update: AGG.9 does not see what AGG.8 writes. -/
theorem aggSpoofing_aggJamming (s : State) : aggSpoofing (aggJamming s) =
    { s with jamming := jammingSeen s, spoofing := spoofingSeen s } := by
  rw [aggSpoofing, spoofingSeen_congr (s := s) (t := aggJamming s) rfl]
  rfl

theorem aggregate_fault (s : State) (herr : errorWord s ≠ 0) : aggregate s = { s with
    valid := false, bestOk := false, hdgOk := false, reason := .deviceFault,
    jamming := if s.cfg.abortSkipsFlags = true then s.jamming else jammingSeen s,
    spoofing := if s.cfg.abortSkipsFlags = true then s.spoofing else spoofingSeen s,
    pollPhase := .idle, events := s.events ++ [.aggregate false .deviceFault] } := by
  rw [aggregate, aggDerive_fault s herr]
  by_cases h : s.cfg.abortSkipsFlags = true
  · simp only [if_pos h]
    rfl
  · simp only [if_neg h, aggSpoofing_aggJamming,
      jammingSeen_congr (s := s) (t := aggFault (aggReset s)) rfl,
      spoofingSeen_congr (s := s) (t := aggFault (aggReset s)) rfl]
    rfl

/-- Steps 5 to 7 and the reason, as one update of what AGG.1 leaves. -/
theorem aggReason_chain (s : State) :
    ∃ v r, aggReason (aggValid (aggHeading (aggBest (aggReset s)))) = { s with
      valid := v, bestOk := bestAccepted s, hdgOk := headingAccepted s, reason := r } := by
  rw [aggReason]
  generalize reasonOf _ = r
  rw [aggValid]
  generalize (_ && typeAccepted _) = v
  rw [aggHeading, headingAccepted_congr (s := s) rfl rfl rfl, aggBest,
    bestAccepted_congr (s := s) rfl rfl rfl]
  exact ⟨v, r, rfl⟩

theorem aggregate_noFault (s : State) (herr : errorWord s = 0) : ∃ v r, aggregate s = { s with
    valid := v, bestOk := bestAccepted s, hdgOk := headingAccepted s,
    reason := r, jamming := jammingSeen s, spoofing := spoofingSeen s,
    pollPhase := .idle, events := s.events ++ [.aggregate v r] } := by
  obtain ⟨v, r, h⟩ := aggReason_chain s
  have hrec := aggReason_rxStatus s
  refine ⟨v, r, ?_⟩
  rw [aggregate, aggDerive_noFault s herr, aggSpoofing_aggJamming,
    jammingSeen_congr hrec, spoofingSeen_congr hrec, h]
  rfl
/-- Settles O47: the two branches of AGG.2, with the values of AGG.7 and AGG.R over the records. -/
theorem aggregateIsOneFunction : Obligations.AggregateIsOneFunction := by
  refine fun s => ⟨aggregate_fault s, fun herr => ?_⟩
  obtain ⟨v, r, hagg⟩ := aggregate_noFault s herr
  have hvalid : (aggregate s).valid = v := congrArg State.valid hagg
  have hreason : (aggregate s).reason = r := congrArg State.reason hagg
  refine ⟨v, r, hagg, hvalid ▸ aggregate_valid_noFault s herr, hreason ▸ ?_⟩
  simpa only [Bool.not_eq_true'] using aggregate_reason_noFault s herr

/-! ## The reason and the flags (R239 to R241) -/

/-- Best position fresh and a heading fresh, in the bits of `fresh` (R21, R40). -/
theorem freshness_iff (s : State) : (isFresh .bestPos s && headingFresh s) = true ↔
    s.fresh.getLsbD 5 = true ∧ (s.fresh.getLsbD 6 = true ∨ s.fresh.getLsbD 7 = true) := by
  rw [headingFresh, Bool.and_eq_true, Bool.or_eq_true]
  exact Iff.rfl

/-- The reason is R_NONE exactly when nothing stands in the way of `valid` (R241). -/
theorem aggregate_reason_none_iff (s : State) :
    (aggregate s).reason = .none ↔ (aggregate s).valid = true := by
  refine ⟨fun h => ?_, aggregate_reason_of_valid⟩
  by_cases herr : errorWord s = 0
  · rw [aggregate_reason_noFault s herr] at h
    split_ifs at h with hant hint hfresh hbest hheading htype
    rw [aggregate_valid_noFault s herr]
    simp_all
  · rw [aggregate_reason_fault s herr] at h
    cases h

/-- Settles O49: the chain of R241, and what its last entry says. -/
theorem reasonIsTheFirstThatApplies : Obligations.ReasonIsTheFirstThatApplies := by
  refine ⟨fun s herr => ?_, aggregate_reason_none_iff⟩
  rw [aggregate_reason_noFault s herr, aggregate_bestOk_noFault s herr,
    aggregate_hdgOk_noFault s herr]
  simp only [← freshness_iff, Bool.not_eq_true', Bool.not_eq_true]

/-- The bits of the jamming mask are those of channels 1 to 3, 5 to 7 (R239). -/
theorem jamAux1Mask_iff (w : U32) : w &&& jamAux1Mask ≠ 0#32 ↔
    w.getLsbD 0 = true ∨ w.getLsbD 1 = true ∨ w.getLsbD 2 = true ∨ w.getLsbD 4 = true ∨
    w.getLsbD 5 = true ∨ w.getLsbD 6 = true := by
  have hmask : ∀ i < 32, jamAux1Mask.getLsbD i = true → i ∈ [0, 1, 2, 4, 5, 6] := by decide
  have hbits : ∀ i ∈ [0, 1, 2, 4, 5, 6], jamAux1Mask.getLsbD i = true := by decide
  have hsome : w &&& jamAux1Mask ≠ 0#32 ↔ ∃ i ∈ [0, 1, 2, 4, 5, 6], w.getLsbD i = true := by
    refine ⟨fun hne => ?_, fun ⟨i, hi, hw⟩ hzero => ?_⟩
    · by_contra hnone
      refine hne (BitVec.eq_of_getLsbD_eq fun i hi => ?_)
      rw [BitVec.getLsbD_and, BitVec.getLsbD_zero, Bool.and_eq_false_iff]
      by_cases hm : jamAux1Mask.getLsbD i = true
      · exact .inl (Bool.eq_false_iff.mpr fun hw => hnone ⟨i, hmask i hi hm, hw⟩)
      · exact .inr (Bool.eq_false_iff.mpr hm)
    · have hbit := congrArg (BitVec.getLsbD · i) hzero
      simp [BitVec.getLsbD_and, hw, hbits i hi] at hbit
  simpa only [List.exists_mem_cons_iff, List.not_mem_nil, false_and, exists_false, or_false] using
    hsome

/-- Settles O50: without a device fault both flags are derived, from the named bits. -/
theorem jammingAndSpoofingBits : Obligations.JammingAndSpoofingBits := by
  intro s herr
  have hderived : ¬ (errorWord s ≠ 0 ∧ s.cfg.abortSkipsFlags = true) := fun h => h.1 herr
  rw [aggregate_jamming, aggregate_spoofing, if_neg hderived, if_neg hderived, jammingSeen,
    Bool.or_eq_true, decide_eq_true_iff, jamAux1Mask_iff]
  exact ⟨Iff.rfl, Iff.rfl⟩

/-- AGG reads neither the TIME holder nor the Frame Reader's registers nor the control position, and
of these it writes the last alone (R242, R244). -/
theorem aggregate_unread (s : State) (x : Bytes) (crc : U32) (fb : Memory) (len : Nat) (rxCrc : U32)
    (m : Nat) (ph : PollPhase) : aggregate { s with
      time := x, crcAcc := crc, fb := fb, fbLen := len, rxCrc := rxCrc, consumed := m,
      pollPhase := ph } =
    { aggregate s with
      time := x, crcAcc := crc, fb := fb, fbLen := len, rxCrc := rxCrc, consumed := m } := by
  generalize hu : { s with
    time := x, crcAcc := crc, fb := fb, fbLen := len, rxCrc := rxCrc, consumed := m,
    pollPhase := ph } = u
  have hrec : u.rxStatus = s.rxStatus := hu ▸ rfl
  by_cases herr : errorWord s = 0
  · have hchain : aggReason (aggValid (aggHeading (aggBest (aggReset u)))) =
        { aggReason (aggValid (aggHeading (aggBest (aggReset s)))) with
          time := x, crcAcc := crc, fb := fb, fbLen := len, rxCrc := rxCrc, consumed := m,
          pollPhase := ph } := hu ▸ rfl
    rw [aggregate, aggregate, aggDerive_noFault s herr,
      aggDerive_noFault u ((errorWord_congr hrec).trans herr), hchain, aggSpoofing_aggJamming,
      aggSpoofing_aggJamming]
    rfl
  · rw [aggregate_fault s herr, aggregate_fault u ((errorWord_congr hrec).symm ▸ herr),
      jammingSeen_congr hrec, spoofingSeen_congr hrec, ← hu]

theorem aggregate_with_time (s : State) (x : Bytes) :
    aggregate { s with time := x } = { aggregate s with time := x } := by
  simpa only [aggregate_crcAcc, aggregate_fb, aggregate_fbLen, aggregate_rxCrc, aggregate_consumed]
    using aggregate_unread s x s.crcAcc s.fb s.fbLen s.rxCrc s.consumed s.pollPhase

/-- Settles O51: `time_valid` reads the parameters and the TIME holder, which AGG neither reads nor
writes (R242). -/
theorem timeValidFollowsTheTimeHolder : Obligations.TimeValidFollowsTheTimeHolder := by
  intro s
  refine ⟨?_, ?_, rfl, aggregate_with_time s, by decide⟩
  · rw [timeValid, timeValidOf, Bool.and_eq_true, decide_eq_true_iff, decide_eq_true_iff]
    exact Iff.rfl
  · rw [timeValid, aggregate_cfg, aggregate_time]
    rfl

/-! ## The named states (R47) -/

/-- With no record fresh there is no fix. -/
theorem aggregate_of_none_fresh {s : State} (h : s.fresh = 0#8) :
    (aggregate s).bestOk = false ∧ (aggregate s).hdgOk = false := by
  have hnone : ∀ k, isFresh k s = false := fun k => by simp [isFresh, h]
  by_cases herr : errorWord s = 0
  · rw [aggregate_bestOk_noFault s herr, aggregate_hdgOk_noFault s herr]
    simp [bestAccepted, headingAccepted, headingFresh, hnone]
  · exact ⟨aggregate_bestOk_fault s herr, aggregate_hdgOk_fault s herr⟩

/-- A valid fix has both its parts (R238). -/
theorem aggregate_parts_of_valid {s : State} (h : (aggregate s).valid = true) :
    (aggregate s).bestOk = true ∧ (aggregate s).hdgOk = true := by
  obtain ⟨herr, -, -, hbest, hheading, -⟩ := (aggregate_valid_iff s).mp h
  rw [aggregate_bestOk_noFault s herr, aggregate_hdgOk_noFault s herr]
  exact ⟨hbest, hheading⟩

theorem partialData_iff (t : State) :
    partialData t = true ↔ t.fresh ≠ 0#8 ∧ t.bestOk = false ∧ t.hdgOk = false := by
  simp only [partialData, Bool.and_eq_true, Bool.not_eq_true', decide_eq_true_iff, and_assoc]

theorem noData_iff (t : State) : noData t = true ↔ t.fresh = 0#8 := decide_eq_true_iff

/-- Settles O52: no fix part is there without a fresh record, nor in PartialData, and `valid` needs
both parts. -/
theorem namedStatesExcludeAndImply : Obligations.NamedStatesExcludeAndImply := by
  refine ⟨fun t => ⟨noData_iff t, partialData_iff t, Iff.rfl, Iff.rfl, Iff.rfl⟩, ?_⟩
  rintro s _ rfl
  refine ⟨?_, fun h => ?_, aggregate_parts_of_valid,
    fun herr => ⟨aggregate_bestOk_fault s herr, aggregate_hdgOk_fault s herr⟩⟩
  · rw [noData_iff, partialData_iff]
    exact fun ⟨hnone, hsome, _⟩ => hsome hnone
  · have hparts : (aggregate s).bestOk = false ∧ (aggregate s).hdgOk = false := by
      rcases h with h | h
      · rw [noData_iff, aggregate_fresh] at h
        exact aggregate_of_none_fresh h
      · exact ((partialData_iff _).mp h).2
    refine ⟨hparts.1, hparts.2, Bool.eq_false_iff.mpr fun hvalid => ?_⟩
    exact absurd (aggregate_parts_of_valid hvalid).1 (by simp [hparts.1])

/-! ## A POLL with rx empty (R245) -/

/-- A run goes on from the state its first step answers. -/
theorem runSteps_succ {s t : State} (h : step s = .next t) (n : Nat) :
    runSteps (n + 1) s = runSteps n t := by
  change (match step s with
    | .next t => runSteps n t
    | .fault f => .fault f
    | .refused r => .refused r) = _
  rw [h]

/-- The state in which AGG runs when a POLL of `s` finds rx empty. -/
def emptyPoll (s : State) : State :=
  { pollStart { s with slots := [] } with pollPhase := .aggregate }

/-- The three steps of such a POLL: its start, the guard of DRAIN, AGG. -/
theorem runSteps_emptyPoll {s : State} (hc : s.cfg.wf = true)
    (hs : s.slots = [.port (.command 2#2)]) (hp : s.pollPhase = .idle) (hrx : s.rx = []) :
    runSteps 3 s = .next (aggregate (emptyPoll s)) := by
  have hstart : step s = .next (pollStart { s with slots := [] }) :=
    (step_slot hc hs).trans (exec_poll_of_idle (s := { s with slots := [] }) hp)
  have hguard : step (pollStart { s with slots := [] }) = .next (emptyPoll s) :=
    (step_quiet (s := pollStart { s with slots := [] }) hc rfl).trans
      (blockTurn_guard_done (s := pollStart { s with slots := [] }) rfl hrx)
  have hagg : step (emptyPoll s) = .next (aggregate (emptyPoll s)) :=
    (step_quiet (s := emptyPoll s) hc rfl).trans (blockTurn_aggregate rfl)
  exact (runSteps_succ hstart 2).trans ((runSteps_succ hguard 1).trans (runSteps_succ hagg 0))

/-- Settles O53: with no kind fresh AGG finds no fix, and the flags that follow the stored record
are what they were. -/
theorem emptyPollChangesOnlyTheCycleFlags : Obligations.EmptyPollChangesOnlyTheCycleFlags := by
  intro s hc hs hp hrx hflags
  have hfresh : (emptyPoll s).fresh = 0#8 := rfl
  have hparts := aggregate_of_none_fresh hfresh
  have hnone : isFresh .bestPos (emptyPoll s) = false := by simp [isFresh, hfresh]
  have hrec : (emptyPoll s).rxStatus = s.rxStatus := rfl
  have herrword : errorWord (emptyPoll s) = errorWord s := errorWord_congr hrec
  have hheld : ¬ (errorWord s ≠ 0 ∧ s.cfg.abortSkipsFlags = true) →
      errorWord s = 0 ∨ s.cfg.abortSkipsFlags = false := fun h => by
    rw [not_and_or, not_not, Bool.not_eq_true] at h
    exact h
  refine ⟨aggregate (emptyPoll s), runSteps_emptyPoll hc hs hp hrx,
    ⟨aggregate_version _, aggregate_hwMonitor _, aggregate_getFixed _, aggregate_hdgLast _⟩,
    ?jamming, ?spoofing, aggregate_fresh _, ?valid, hparts.1, hparts.2,
    (aggregate_rx _).trans hrx, rfl, ?reason⟩
  case jamming =>
    rw [aggregate_jamming, herrword, jammingSeen_congr hrec]
    split
    · rfl
    · next h => exact (hflags hp (hheld h)).1.symm
  case spoofing =>
    rw [aggregate_spoofing, herrword, spoofingSeen_congr hrec]
    split
    · rfl
    · next h => exact (hflags hp (hheld h)).2.symm
  case valid =>
    exact Bool.eq_false_iff.mpr fun hvalid =>
      absurd (aggregate_parts_of_valid hvalid).1 (by simp [hparts.1])
  case reason =>
    by_cases herr : errorWord s = 0
    · rw [aggregate_reason_noFault _ (herrword.trans herr), antFault_congr (s := s) rfl hrec,
        integFault_congr (s := s) rfl hrec, hnone, if_neg (not_not_intro herr)]
      rfl
    · rw [aggregate_reason_fault _ (herrword ▸ herr), if_pos herr]

end Sys2Proof.Machine

/-! # Proofs: the stages against the functional form (R165, R273, R278)

From any stage the steps of an attempt reach what `readFrame` says of the bytes already held and
those in rx; that, pass by pass, makes a POLL with nothing from outside the fold of `drainAll`. -/

namespace Sys2Proof.Machine
open Sys2Proof.Safety

/-! ## The end of an attempt as a function of what the reader answers -/

/-- The state after an attempt that answers `r`, of which `n` bytes were consumed or are in rx. -/
def finish (r : ReadResult × Bytes) (n : Nat) (s : State) : State :=
  match r with
  | (.frame body, rest) =>
    decodeMessage (frameId body) (framePayload body)
      { s with rx := rest, consumed := n - rest.length }
  | (.err e st, rest) => raise e st { s with rx := rest, consumed := n - rest.length }
  | (.noFrame, _) => s

theorem attemptOnce_eq_finish (s : State) :
    attemptOnce s = finish (readFrame s.rx) s.rx.length s := by
  rw [attemptOnce]
  rcases readFrame s.rx with ⟨_ | _ | _, rest⟩ <;> rfl

/-- An attempt on a byte of rx has a result (R162). -/
theorem readFrame_ne_noFrame {l : Bytes} (hl : l ≠ []) : (readFrame l).1 ≠ .noFrame := by
  intro hnone
  obtain ⟨n, -, -, -, hresult⟩ := attemptConsumesByResult l hl
  rw [hnone] at hresult
  exact hresult

/-- DECODE does not look at the Frame Reader's registers or the control position, and it ends the
attempt wherever it stood. -/
theorem decodeMessage_dead (id : U16) (p : Bytes) (s : State) (g : Stage) (crc : U32) (fb : Memory)
    (len : Nat) (rxCrc : U32) (ph : PollPhase) :
    eraseDead (decodeMessage id p { s with
      frStage := g, crcAcc := crc, fb := fb, fbLen := len, rxCrc := rxCrc, pollPhase := ph }) =
    eraseDead (decodeMessage id p s) := by
  have hfixed : ∀ k, eraseDead (decFixed k p { s with
      frStage := g, crcAcc := crc, fb := fb, fbLen := len, rxCrc := rxCrc, pollPhase := ph }) =
      eraseDead (decFixed k p s) := fun k => by
    simp only [decFixed, apply_ite eraseDead]
    cases k <;> rfl
  have hcounted : ∀ k, eraseDead (decCounted k p { s with
      frStage := g, crcAcc := crc, fb := fb, fbLen := len, rxCrc := rxCrc, pollPhase := ph }) =
      eraseDead (decCounted k p s) := fun k => by
    simp only [decCounted, apply_ite eraseDead]
    cases k <;> rfl
  simp only [decodeMessage, apply_ite eraseDead, hfixed, hcounted]
  rfl

/-- The same for the whole end of an attempt, which sets rx and `consumed` itself. -/
theorem finish_dead {r : ReadResult × Bytes} (hr : r.1 ≠ .noFrame) (n : Nat) (s : State)
    (rx : Bytes) (m : Nat) (g : Stage) (crc : U32) (fb : Memory) (len : Nat) (rxCrc : U32)
    (ph : PollPhase) :
    eraseDead (finish r n { s with
      rx := rx, consumed := m, frStage := g, crcAcc := crc, fb := fb, fbLen := len, rxCrc := rxCrc,
      pollPhase := ph }) = eraseDead (finish r n s) := by
  rcases r with ⟨body | ⟨e, st⟩ | _, rest⟩
  · exact decodeMessage_dead _ _ { s with rx := rest, consumed := n - rest.length } g crc fb len
      rxCrc ph
  · rfl
  · exact absurd rfl hr

/-- DECODE on an accepted frame is one of the moves of a frame instruction. -/
theorem frameMove_decodeMessage (body : Bytes) (s : State) :
    FrameMove body s (decodeMessage (frameId body) (framePayload body) s) := by
  obtain ⟨t, ht, hm⟩ := exec_frameInstr s body
  rw [frameInstr, exec_selectInstr] at ht
  exact Host.Outcome.next.inj ht ▸ hm

/-- What the end of an attempt leaves, and where. -/
theorem finish_keeps {r : ReadResult × Bytes} (hr : r.1 ≠ .noFrame) (n : Nat) (s : State) :
    (finish r n s).cfg = s.cfg ∧ (finish r n s).slots = s.slots ∧ (finish r n s).rx = r.2 ∧
    (finish r n s).frStage = .idle ∧ (finish r n s).pollPhase = .guard := by
  rcases r with ⟨body | ⟨e, st⟩ | _, rest⟩
  · obtain ⟨hcfg, hslots, hrx, -, hstage, hphase, -⟩ := (frameMove_decodeMessage body
      { s with rx := rest, consumed := n - rest.length }).keeps
    exact ⟨hcfg, hslots, hrx, hstage, hphase⟩
  · exact ⟨rfl, rfl, rfl, rfl, rfl⟩
  · exact absurd rfl hr

/-! ## Runs of an attempt with nothing from outside -/

/-- Within `k` steps `s` comes to `r`, but for the registers dead between attempts (R35). -/
def Reaches (k : Nat) (s r : State) : Prop :=
  ∃ j t, j ≤ k ∧ runSteps j s = .next t ∧ eraseDead t = eraseDead r

/-- Nothing comes from outside, and POLL stands inside an attempt. -/
structure Inside (s : State) : Prop where
  wf : s.cfg.wf = true
  quiet : s.slots = []
  attempt : s.pollPhase = .attempt

theorem Inside.step_eq {s : State} (h : Inside s) : step s = attemptStep s :=
  (step_quiet h.wf h.quiet).trans (blockTurn_attempt h.attempt)

theorem Reaches.head {k : Nat} {s t r : State} (hstep : step s = .next t) (h : Reaches k t r) :
    Reaches (k + 1) s r := by
  obtain ⟨j, u, hj, hrun, heq⟩ := h
  exact ⟨j + 1, u, Nat.succ_le_succ hj, (runSteps_succ hstep j).trans hrun, heq⟩

theorem Reaches.last {k : Nat} {s t r : State} (hstep : step s = .next t)
    (heq : eraseDead t = eraseDead r) : Reaches (k + 1) s r :=
  .head hstep ⟨0, t, Nat.zero_le k, rfl, heq⟩

/-- Within `k` steps the attempt ends as the functional form says of the bytes `b` it has consumed
and those in rx. -/
def Runs (k : Nat) (b : Bytes) (s : State) : Prop :=
  Reaches k s (finish (readFrame (b ++ s.rx)) (b.length + s.rx.length) s)

theorem Reaches.congr {k : Nat} {s r r' : State} (h : Reaches k s r)
    (heq : eraseDead r = eraseDead r') : Reaches k s r' := by
  obtain ⟨j, t, hj, hrun, hr⟩ := h
  exact ⟨j, t, hj, hrun, hr.trans heq⟩

/-- A stage that stores `v` hands the run to the next stage, which holds `v` too. -/
theorem runs_stored {k : Nat} {b v t : Bytes} {g : Stage} {s : State} (hin : Inside s)
    (hrx : s.rx = v ++ t) (hne : b ++ s.rx ≠ []) (hstep : attemptStep s = .next (stored v g s))
    (h : Runs k (b ++ v) (stored v g s)) : Runs (k + 1) b s := by
  have hrest : (stored v g s).rx = t := by
    simp only [stored, hrx, List.drop_left]
  have hbytes : (b ++ v) ++ t = b ++ s.rx := by rw [hrx, List.append_assoc]
  have hcount : (b ++ v).length + t.length = b.length + s.rx.length := by
    rw [← List.length_append, hbytes, List.length_append]
  obtain ⟨j, u, hj, hrun, heq⟩ := h
  rw [hrest, hbytes, hcount] at heq
  refine .head (hin.step_eq.trans hstep) ⟨j, u, hj, hrun, heq.trans ?_⟩
  exact finish_dead (readFrame_ne_noFrame hne) _ s _ _ _ _ _ _ s.rxCrc s.pollPhase

/-- A stage that raises ends the run, where the reader answers the same error and leaves the same
bytes. -/
theorem runs_raise {k : Nat} {b v rest : Bytes} {e : ErrKind} {st : Nat} {s : State}
    (hin : Inside s) (hcons : s.consumed = b.length) (hrx : s.rx = v ++ rest)
    (hstep : attemptStep s =
      .next (raise e st { s with rx := rest, consumed := s.consumed + v.length }))
    (hread : readFrame (b ++ s.rx) = (.err e st, rest)) : Runs (k + 1) b s := by
  have hcount : s.consumed + v.length = b.length + s.rx.length - rest.length := by
    rw [hcons, hrx, List.length_append]
    omega
  refine .last (hin.step_eq.trans hstep) ?_
  rw [hread, hcount]
  rfl

/-- A read whose bytes are stored is the move that `stored` names (R156, R157). -/
theorem readThen_store_eq_stored {stage n a : Nat} {g : Stage} {s : State} {v t : Bytes}
    (ha : s.fbLen = a) (hcap : a + n ≤ fbCapacity) (hv : v.length = n) (hrx : s.rx = v ++ t) :
    readThen stage n s (fun v u => store a v g u) = .next (stored v g s) := by
  rw [readThen_store ha hcap hv hrx, stored, hrx, List.drop_left, ha, hv]

/-- The same for a one-byte stage on its wanted byte (R152 to R155). -/
theorem readThen_matchByte_eq_stored {stage a : Nat} {want : Byte} {e : ErrKind} {g : Stage}
    {s : State} {t : Bytes} (ha : s.fbLen = a) (hcap : a < fbCapacity) (hrx : s.rx = want :: t) :
    readThen stage 1 s (matchByte want e stage a g) = .next (stored [want] g s) := by
  rw [(readThen_matchByte ha hcap).2.2 want t hrx rfl, stored, hrx, ha]
  rfl

/-- Bytes that are long enough, cut in two. -/
theorem exists_append_of_le {l : Bytes} {n : Nat} (h : n ≤ l.length) :
    ∃ v t, l = v ++ t ∧ v.length = n :=
  ⟨l.take n, l.drop n, (List.take_append_drop n l).symm, List.length_take_of_le h⟩

/-! ## The stages, last first -/

/-- S_CHK (R159, R160): the trailer `t` is in `rx_crc`, the frame in fb. -/
theorem runs_chk {b : Bytes} {s : State} (hin : Inside s) (hg : s.frStage = .chk)
    (hholds : Holds s frameLead (headLen + frameLen b) b) :
    Reaches 1 s (if crc32 b = s.rxCrc then decodeMessage (frameId b) (framePayload b) s
      else raise .checksumMismatch 8 s) := by
  have hrun : attemptStep s = stageChk s := by simp only [attemptStep, hg]
  split
  · next hcrc =>
    refine .last (hin.step_eq.trans ?_) rfl
    rw [hrun, stageChk_accepts (hholds.crc.trans hcrc) (fetchFrame_of_holds hholds), frameInstr,
      exec_selectInstr]
  · next hcrc =>
    exact .last (hin.step_eq.trans (hrun.trans (stageChk_mismatch (hholds.crc ▸ hcrc)))) rfl

/-- S_CRC (R158). -/
theorem runs_crc {h p : Bytes} {s : State} (hin : Inside s) (hg : s.frStage = .crc)
    (hh : h.length = 24) (hp : p.length = leAt h 4 2)
    (hholds : Holds s frameLead (28 + p.length) (frameLead ++ h ++ p))
    (hcons : s.consumed = 28 + p.length) : Runs 2 (frameLead ++ h ++ p) s := by
  have hlead : (frameLead ++ h).length = 28 := by rw [List.length_append, hh]; rfl
  have hlen : (frameLead ++ h ++ p).length = 28 + p.length := by rw [List.length_append, hlead]
  have hrun : attemptStep s = stageCrc s := by simp only [attemptStep, hg]
  rcases Nat.lt_or_ge s.rx.length 4 with hshort | hlong
  · refine runs_raise (v := []) hin (hcons.trans hlen.symm) rfl
      (hrun.trans (readThen_short hshort)) ?_
    have hhas : ¬ (p ++ s.rx).length < leAt h 4 2 := by
      rw [List.length_append, hp]
      omega
    have hlacks : (p ++ s.rx).length < leAt h 4 2 + crcLen := by
      rw [List.length_append, hp]
      exact Nat.add_lt_add_left hshort _
    rw [List.append_assoc, readFrame_frameLead hh, readBody]
    simp only [if_neg hhas, if_pos hlacks]
    rw [← hp, List.drop_left]
  · obtain ⟨t, rest, hrx, ht⟩ := exists_append_of_le hlong
    have hstep : attemptStep s = .next { s with
        rx := rest, consumed := s.consumed + 4, rxCrc := BitVec.ofNat 32 (leNat t),
        frStage := .chk } := hrun.trans (readThen_append ht hrx)
    have hread : readFrame (frameLead ++ h ++ p ++ s.rx) =
        if crc32 (frameLead ++ h ++ p) = BitVec.ofNat 32 (leNat t)
        then (.frame (frameLead ++ h ++ p), rest) else (.err .checksumMismatch 8, rest) := by
      rw [hrx, List.append_assoc, readFrame_frameLead hh, ← List.append_assoc,
        readBody_append hp ht]
    have hcount : (frameLead ++ h ++ p).length + s.rx.length - rest.length = s.consumed + 4 := by
      rw [hlen, hcons, hrx, List.length_append, ht]
      omega
    have hfield : frameLen (frameLead ++ h ++ p) = p.length := by
      rw [frameLen_append p (by omega), hp]
      rfl
    refine .head (hin.step_eq.trans hstep) (.congr (runs_chk (b := frameLead ++ h ++ p)
      ⟨hin.wf, hin.quiet, hin.attempt⟩ rfl ⟨?_, ?_, hholds.lead, hholds.crc⟩) ?_)
    · rw [hfield]
      exact hholds.fbLen
    · rw [hfield]
      exact hholds.bytes
    · rw [hread]
      by_cases hcrc : crc32 (frameLead ++ h ++ p) = BitVec.ofNat 32 (leNat t)
      · simp only [if_pos hcrc, finish, hcount]
        exact decodeMessage_dead _ _ { s with rx := rest, consumed := s.consumed + 4 } .chk _ _ _ _
          _
      · simp only [if_neg hcrc, finish, hcount]
        rfl

/-- S_PAY (R157). -/
theorem runs_pay {h : Bytes} {s : State} (hin : Inside s) (hg : s.frStage = .pay)
    (hh : h.length = 24) (hholds : Holds s frameLead 28 (frameLead ++ h))
    (hcons : s.consumed = 28) : Runs 3 (frameLead ++ h) s := by
  have hlead : (frameLead ++ h).length = 28 := by rw [List.length_append, hh]; rfl
  have hn : leNat (slice (frameLead ++ h) 8 2) = leAt h 4 2 := rfl
  have hlt : leAt h 4 2 < 256 ^ 2 := leAt_lt h 4 2
  have hrun : attemptStep s = readThen 6 (leAt h 4 2) s (fun p t => store headLen p .crc t) := by
    simp only [attemptStep, hg, stagePay, fbRead_of_holds hholds (Nat.le_refl 28), hn]
  rcases Nat.lt_or_ge s.rx.length (leAt h 4 2) with hshort | hlong
  · refine runs_raise (v := []) hin (hcons.trans hlead.symm) rfl
      (hrun.trans (readThen_short hshort)) ?_
    rw [readFrame_frameLead hh, readBody]
    exact if_pos hshort
  · obtain ⟨p, t, hrx, hp⟩ := exists_append_of_le hlong
    have hstep : attemptStep s = .next (stored p .crc s) :=
      hrun.trans (readThen_store_eq_stored hholds.fbLen
        (by simp only [headLen, fbCapacity]; omega) hp hrx)
    refine runs_stored hin hrx (by simp [frameLead]) hstep
      (runs_crc ⟨hin.wf, hin.quiet, hin.attempt⟩ rfl hh hp ?_ ?_)
    · exact holds_stored hholds p .crc (hholds.lead.trans (List.prefix_append _ p))
    · exact congrArg (· + p.length) hcons

/-- S_HDR (R156). -/
theorem runs_hdr {s : State} (hin : Inside s) (hg : s.frStage = .hdr)
    (hholds : Holds s frameLead 4 frameLead) (hcons : s.consumed = 4) : Runs 4 frameLead s := by
  have hrun : attemptStep s = stageHdr s := by simp only [attemptStep, hg]
  rcases Nat.lt_or_ge s.rx.length 24 with hshort | hlong
  · exact runs_raise (v := []) hin hcons rfl (hrun.trans (readThen_short hshort))
      (readFrame_shortHeader hshort)
  · obtain ⟨h, t, hrx, hh⟩ := exists_append_of_le hlong
    have hstep : attemptStep s = .next (stored h .pay s) :=
      hrun.trans (readThen_store_eq_stored hholds.fbLen (by decide) hh hrx)
    have hnext := holds_stored hholds h .pay (hholds.lead.trans (List.prefix_append _ h))
    rw [hh] at hnext
    exact runs_stored hin hrx (by simp [frameLead]) hstep
      (runs_pay ⟨hin.wf, hin.quiet, hin.attempt⟩ rfl hh hnext (by simp [stored, hcons, hh]))

/-- A one-byte stage after the bytes `lead`: nothing to read, another byte, or the wanted one. -/
theorem runs_byte {k stage : Nat} {lead : Bytes} {want : Byte} {e : ErrKind} {g : Stage} {s : State}
    (hin : Inside s) (hcap : lead.length < fbCapacity)
    (hrun : attemptStep s = readThen stage 1 s (matchByte want e stage lead.length g))
    (hholds : Holds s lead lead.length lead) (hcons : s.consumed = lead.length)
    (hshort : s.rx = [] → readFrame lead = (.err .shortRead stage, []))
    (hmiss : ∀ x t, x ≠ want → readFrame (lead ++ x :: t) = (.err e stage, t))
    (hnext : Inside (stored [want] g s) →
      Holds (stored [want] g s) (lead ++ [want]) (lead.length + 1) (lead ++ [want]) →
      (stored [want] g s).consumed = lead.length + 1 →
      Runs k (lead ++ [want]) (stored [want] g s)) :
    Runs (k + 1) lead s := by
  obtain ⟨hnone, hother, -⟩ := readThen_matchByte (want := want) (e := e) (stage := stage) (g := g)
    hholds.fbLen hcap
  rcases hrx : s.rx with _ | ⟨x, t⟩
  · refine runs_raise (v := []) (rest := s.rx) hin hcons rfl (hrun.trans (hnone hrx)) ?_
    rw [hrx, List.append_nil]
    exact hshort hrx
  · by_cases hx : x = want
    · subst hx
      exact runs_stored (v := [x]) hin hrx (by simp [hrx])
        (hrun.trans (readThen_matchByte_eq_stored hholds.fbLen hcap hrx))
        (hnext ⟨hin.wf, hin.quiet, hin.attempt⟩ (holds_stored hholds [x] g (List.prefix_refl _))
          (congrArg (· + 1) hcons))
    · refine runs_raise (v := [x]) hin hcons hrx (hrun.trans (hother x t hrx hx)) ?_
      rw [hrx]
      exact hmiss x t hx

/-- From S_SYNC1 on (R152 to R155): four one-byte stages, each after the bytes of those before. -/
theorem runs_sync1 {s : State} (hin : Inside s) (hg : s.frStage = .sync1) (hrx : s.rx ≠ [])
    (hholds : Holds s [] 0 []) (hcons : s.consumed = 0) : Runs 8 [] s := by
  have hsome : ¬ rxAvail s < 1 := by
    simpa [rxAvail, Nat.lt_one_iff] using hrx
  refine runs_byte (g := .sync2) (e := .frameSyncMiss) (stage := 1) hin (by decide) ?_ hholds hcons
    (fun h => absurd h hrx) (fun x t hx => readFrame_missSync1 hx t)
    fun hin hholds hcons => ?_
  · simp only [attemptStep, hg, stageSync1, readThen, if_neg hsome]
    rfl
  refine runs_byte (g := .sync3) hin (by decide) rfl hholds hcons
    (fun _ => readFrame_shortSync2) (fun x t hx => readFrame_missSync2 hx t)
    fun hin hholds hcons => ?_
  refine runs_byte (g := .hlen) hin (by decide) rfl hholds hcons
    (fun _ => readFrame_shortSync3) (fun x t hx => readFrame_missSync3 hx t)
    fun hin hholds hcons => ?_
  exact runs_byte (g := .hdr) hin (by decide) rfl hholds hcons
    (fun _ => readFrame_shortHlen) (fun x t hx => readFrame_badHlen hx t)
    fun hin hholds hcons => runs_hdr hin rfl hholds hcons

/-- From its start an attempt ends as the functional form says, within nine steps (R165). -/
theorem reaches_attemptOnce {s : State} (hin : Inside s) (hg : s.frStage = .idle)
    (hrx : s.rx ≠ []) : Reaches 9 s (attemptOnce s) := by
  have hrun := runs_sync1 (s := { s with
      crcAcc := 0#32, fbLen := 0, frStage := .sync1, consumed := 0 })
    ⟨hin.wf, hin.quiet, hin.attempt⟩ rfl hrx ⟨rfl, rfl, List.prefix_refl _, rfl⟩ rfl
  refine .head (hin.step_eq.trans (attemptStep_start hg hrx)) (.congr hrun ?_)
  rw [attemptOnce_eq_finish, List.length_nil, Nat.zero_add, List.nil_append]
  exact finish_dead (readFrame_ne_noFrame hrx) _ s s.rx 0 .sync1 0#32 s.fb 0 s.rxCrc s.pollPhase

/-- Settles O39: the start of the attempt and its eight stages. -/
theorem stagesRunAsTheFunctionalForm : Obligations.StagesRunAsTheFunctionalForm :=
  fun _ hc hs hp hg hrx => reaches_attemptOnce ⟨hc, hs, hp⟩ hg hrx

/-! ## A whole POLL (R272, R273, R278) -/

/-- What an attempt on a byte of rx leaves: the next pass of DRAIN starts there, with less in rx. -/
theorem attemptOnce_keeps {s : State} (hrx : s.rx ≠ []) :
    (attemptOnce s).cfg = s.cfg ∧ (attemptOnce s).slots = s.slots ∧
    (attemptOnce s).rx.length < s.rx.length ∧ (attemptOnce s).frStage = .idle ∧
    (attemptOnce s).pollPhase = .guard := by
  obtain ⟨hcfg, hslots, hrest, hstage, hphase⟩ :=
    finish_keeps (readFrame_ne_noFrame hrx) s.rx.length s
  obtain ⟨n, hn, hle, hdrop, -⟩ := attemptConsumesByResult s.rx hrx
  rw [attemptOnce_eq_finish]
  refine ⟨hcfg, hslots, ?_, hstage, hphase⟩
  rw [hrest, hdrop, List.length_drop]
  omega

/-- An attempt does not look at the registers dead between attempts, nor at the control position. -/
theorem attemptOnce_congr {s t : State} (h : eraseDead s = eraseDead t) :
    eraseDead (attemptOnce s) = eraseDead (attemptOnce t) := by
  have hdead : ∀ u, eraseDead (attemptOnce (eraseDead u)) = eraseDead (attemptOnce u) := fun u => by
    by_cases hrx : u.rx = []
    · have hnone : ∀ w : State, w.rx = [] → attemptOnce w = w := fun w hw => by
        rw [attemptOnce_eq_finish, hw]
        rfl
      rw [hnone u hrx, hnone (eraseDead u) hrx]
      rfl
    · rw [attemptOnce_eq_finish, attemptOnce_eq_finish]
      exact finish_dead (readFrame_ne_noFrame hrx) _ u u.rx 0 u.frStage 0#32 [] 0 0#32 u.pollPhase
  rw [← hdead s, h, hdead t]

theorem rx_eq_of_eraseDead_eq {s t : State} (h : eraseDead s = eraseDead t) : s.rx = t.rx := by
  have hrx : (eraseDead s).rx = (eraseDead t).rx := by rw [h]
  exact hrx

/-- DRAIN stops once rx is empty (R272). -/
theorem drainAll_of_nil {s : State} (hrx : s.rx = []) (n : Nat) : drainAll n s = s := by
  cases n with
  | zero => rfl
  | succ n => exact if_pos (List.length_eq_zero_iff.mpr hrx)

/-- A pass of DRAIN is an attempt (R272). -/
theorem drainAll_succ {s : State} (hrx : s.rx ≠ []) (n : Nat) :
    drainAll (n + 1) s = drainAll n (attemptOnce s) :=
  if_neg fun hnil => hrx (List.length_eq_zero_iff.mp hnil)

/-- The passes of DRAIN look at no dead register either. -/
theorem drainAll_congr {s t : State} (h : eraseDead s = eraseDead t) (n : Nat) :
    eraseDead (drainAll n s) = eraseDead (drainAll n t) := by
  induction n generalizing s t with
  | zero => exact h
  | succ n ih =>
    have hrx := rx_eq_of_eraseDead_eq h
    by_cases hnil : s.rx = []
    · rw [drainAll_of_nil hnil, drainAll_of_nil (hrx ▸ hnil)]
      exact h
    · rw [drainAll_succ hnil, drainAll_succ (hrx ▸ hnil)]
      exact ih (attemptOnce_congr h)

/-- AGG looks at no dead register either, and sets the control position (R230). -/
theorem aggregate_dead (s : State) (crc : U32) (fb : Memory) (len : Nat) (rxCrc : U32) (m : Nat)
    (ph : PollPhase) : eraseDead (aggregate { s with
      crcAcc := crc, fb := fb, fbLen := len, rxCrc := rxCrc, consumed := m, pollPhase := ph }) =
    eraseDead (aggregate s) := by
  refine (congrArg eraseDead (aggregate_unread s s.time crc fb len rxCrc m ph)).trans ?_
  simp only [eraseDead, aggregate_time]

theorem aggregate_congr {s t : State} (h : eraseDead s = eraseDead t) :
    eraseDead (aggregate s) = eraseDead (aggregate t) := by
  have hdead : ∀ u, eraseDead (aggregate (eraseDead u)) = eraseDead (aggregate u) :=
    fun u => aggregate_dead u 0#32 [] 0 0#32 0 u.pollPhase
  rw [← hdead s, h, hdead t]

/-- A run of one step and more that answers a next state has a next state after its first step. -/
theorem runSteps_succ_next {j : Nat} {s t : State} (h : runSteps (j + 1) s = .next t) :
    ∃ u, step s = .next u ∧ runSteps j u = .next t := by
  change (match step s with
    | .next t => runSteps j t
    | .fault f => .fault f
    | .refused r => .refused r) = _ at h
  rcases hstep : step s with u | f | r
  · rw [hstep] at h
    exact ⟨u, rfl, h⟩
  · rw [hstep] at h
    cases h
  · rw [hstep] at h
    cases h

theorem runSteps_add {j : Nat} {s t : State} (h : runSteps j s = .next t) (k : Nat) :
    runSteps (j + k) s = runSteps k t := by
  induction j generalizing s with
  | zero =>
    obtain rfl : s = t := Host.Outcome.next.inj h
    rw [Nat.zero_add]
  | succ j ih =>
    obtain ⟨u, hstep, hrun⟩ := runSteps_succ_next h
    rw [Nat.succ_add, runSteps_succ hstep, ih hrun]

/-- One pass of DRAIN: the guard and the attempt (R272). -/
theorem reaches_pass {s : State} (hc : s.cfg.wf = true) (hs : s.slots = [])
    (hp : s.pollPhase = .guard) (hg : s.frStage = .idle) (hrx : s.rx ≠ []) :
    Reaches 10 s (attemptOnce s) := by
  have hattempt := reaches_attemptOnce (s := { s with pollPhase := .attempt }) ⟨hc, hs, rfl⟩ hg hrx
  refine .head ((step_quiet hc hs).trans (blockTurn_guard_more hp hrx)) (.congr hattempt ?_)
  rw [attemptOnce_eq_finish, attemptOnce_eq_finish]
  exact finish_dead (readFrame_ne_noFrame hrx) _ s s.rx s.consumed s.frStage s.crcAcc s.fb s.fbLen
    s.rxCrc .attempt

/-- The end of DRAIN: the guard and AGG (R272, R230). -/
theorem runSteps_end {s : State} (hc : s.cfg.wf = true) (hs : s.slots = [])
    (hp : s.pollPhase = .guard) (hrx : s.rx = []) :
    runSteps 2 s = .next (aggregate { s with pollPhase := .aggregate }) := by
  have hguard := (step_quiet hc hs).trans (blockTurn_guard_done hp hrx)
  have hagg := (step_quiet (s := { s with pollPhase := .aggregate }) hc hs).trans
    (blockTurn_aggregate rfl)
  exact (runSteps_succ hguard 1).trans (runSteps_succ hagg 0)

/-- From `s` the block empties rx, runs AGG and is idle, as `n` passes of DRAIN say, within ten
steps for each byte of rx and two more. -/
def DrainsAs (n : Nat) (s : State) : Prop :=
  ∃ k t, k ≤ 10 * s.rx.length + 2 ∧ runSteps k s = .next t ∧ t.rx = [] ∧ t.pollPhase = .idle ∧
    eraseDead t = eraseDead (aggregate (drainAll n s))

theorem drainsAs_of_nil (n : Nat) {s : State} (hc : s.cfg.wf = true) (hs : s.slots = [])
    (hp : s.pollPhase = .guard) (hrx : s.rx = []) : DrainsAs n s := by
  rw [DrainsAs, drainAll_of_nil hrx]
  exact ⟨2, _, by omega, runSteps_end hc hs hp hrx, (aggregate_rx _).trans hrx, rfl,
    aggregate_dead s s.crcAcc s.fb s.fbLen s.rxCrc s.consumed .aggregate⟩

/-- From the guard of DRAIN as many passes are enough as rx holds bytes. -/
theorem drainsAs (n : Nat) {s : State} (hc : s.cfg.wf = true) (hs : s.slots = [])
    (hp : s.pollPhase = .guard) (hg : s.frStage = .idle) (hn : s.rx.length ≤ n) :
    DrainsAs n s := by
  induction n generalizing s with
  | zero => exact drainsAs_of_nil 0 hc hs hp (List.length_eq_zero_iff.mp (Nat.le_zero.mp hn))
  | succ n ih =>
    by_cases hrx : s.rx = []
    · exact drainsAs_of_nil (n + 1) hc hs hp hrx
    obtain ⟨hcfg, hslots, hless, hstage, hphase⟩ := attemptOnce_keeps hrx
    obtain ⟨j, u, hj, hpass, hu⟩ := reaches_pass hc hs hp hg hrx
    have hlive : ∀ {α : Type} (f : State → α), (∀ w, f (eraseDead w) = f w) →
        f u = f (attemptOnce s) := fun f hf => by rw [← hf u, hu, hf]
    have hrxu : u.rx = (attemptOnce s).rx := hlive (·.rx) fun _ => rfl
    obtain ⟨k, t, hk, hrun, hnil, hidle, heq⟩ := ih (s := u)
      (by rw [hlive (·.cfg) fun _ => rfl, hcfg, hc])
      ((hlive (·.slots) fun _ => rfl).trans (hslots.trans hs))
      ((hlive (·.pollPhase) fun _ => rfl).trans hphase)
      ((hlive (·.frStage) fun _ => rfl).trans hstage) (by rw [hrxu]; omega)
    rw [hrxu] at hk
    refine ⟨j + k, t, by omega, (runSteps_add hpass k).trans hrun, hnil, hidle, ?_⟩
    rw [drainAll_succ hrx, heq]
    exact aggregate_congr (drainAll_congr hu n)

/-- Settles O40: DRAIN needs no more passes than rx holds bytes, since each consumes one (R162). -/
theorem quiescentPollIsAFunction : Obligations.QuiescentPollIsAFunction := by
  intro s hc hs hp hg
  obtain ⟨k, t, hk, hrun, hrx, hphase, heq⟩ := drainsAs s.rx.length
    (s := pollStart s) hc hs rfl hg (Nat.le_refl _)
  exact ⟨pollStart s, k, t, exec_poll_of_idle hp, hk, hrun, hrx, hphase, heq⟩

/-! ## Garbage (R341) -/

/-- A byte other than 0xAA at the head of rx costs one FrameSyncMiss(1) (R152). -/
theorem attemptOnce_missSync1 {s : State} {b : Byte} {t : Bytes} (hb : b ≠ 0xAA#8)
    (hrx : s.rx = b :: t) :
    attemptOnce s = raise .frameSyncMiss 1 { s with rx := t, consumed := 1 } := by
  rw [attemptOnce_eq_finish, hrx, readFrame_missSync1 hb]
  simp only [finish, List.length_cons, Nat.add_sub_cancel_left]

/-- Settles O41: each byte of the garbage is such an attempt, which changes neither record nor
flag. -/
theorem garbageIsScannedOff : Obligations.GarbageIsScannedOff := by
  intro g r s hg hrx
  induction g generalizing s with
  | nil =>
    exact ⟨hrx, (List.append_nil _).symm, ⟨rfl, rfl, fun _ => rfl, rfl⟩,
      ⟨rfl, rfl, rfl, rfl, rfl, rfl⟩, rfl⟩
  | cons b g ih =>
    rw [List.cons_append] at hrx
    have hb : b ≠ 0xAA#8 := hg b List.mem_cons_self
    obtain ⟨hrest, hevents, hrecords, hflags, hfresh⟩ :=
      ih (raise .frameSyncMiss 1 { s with rx := g ++ r, consumed := 1 })
        (fun x hx => hg x (List.mem_cons_of_mem b hx)) rfl
    rw [List.length_cons, drainAll_succ (by simp [hrx]), attemptOnce_missSync1 hb hrx]
    refine ⟨hrest, ?_, ⟨hrecords.version, hrecords.hwMonitor, hrecords.fixed, hrecords.hdgLast⟩,
      ⟨hflags.valid, hflags.jamming, hflags.spoofing, hflags.reason, hflags.bestOk, hflags.hdgOk⟩,
      hfresh⟩
    rw [hevents, List.replicate_succ, ← List.singleton_append, ← List.append_assoc]
    rfl

end Sys2Proof.Machine
